-- ==== Sys2Proof/Word.lean ====
section
/-! DEFINITION. The two word types of the core (00_scope.md R5): 8-bit register and bus values, 16-bit addresses. -/

namespace Sys2Proof

/-- A register value, a bus value or a memory byte: 8 bits. -/
abbrev Byte := BitVec 8

/-- The program counter, an address or an operand word: 16 bits. -/
abbrev Word := BitVec 16

end Sys2Proof
end

