-- ==== Sys2Proof/Syntax.lean ====
section
/-! DEFINITION. The instructions as abstract data: addressing modes (30_encoding.md R74), mnemonics (R76) and
`Instr`, one constructor per row of the instruction table (R76). -/

namespace Sys2Proof

/-- The thirteen addressing modes, under the abbreviations of 30_encoding.md R74. -/
inductive Mode where
  | imp  -- implied
  | acc  -- accumulator
  | imm  -- immediate
  | zp  -- zero-page
  | zpx  -- zero-page,X
  | zpy  -- zero-page,Y
  | abs  -- absolute
  | abx  -- absolute,X
  | aby  -- absolute,Y
  | izx  -- (zero-page,X)
  | izy  -- (zero-page),Y
  | rel  -- relative
  | ind  -- absolute-indirect
  deriving DecidableEq, Repr

/-- The 56 mnemonics of the instruction table (30_encoding.md R76), in the order of the instruction files 42 to 47. -/
inductive Mnemonic where
  -- 42_load_store.md: loads and stores
  | lda
  | ldx
  | ldy
  | sta
  | stx
  | sty
  -- 43_transfer_stack.md: stack and transfers
  | pha
  | php
  | pla
  | plp
  | tsx
  | txs
  | tax
  | tay
  | txa
  | tya
  -- 44_arithmetic_logic.md: arithmetic, logic, compare, bit test
  | adc
  | sbc
  | and
  | ora
  | eor
  | cmp
  | cpx
  | cpy
  | bit
  -- 45_incdec_shift.md: increment, decrement, shift, rotate
  | inc
  | dec
  | inx
  | iny
  | dex
  | dey
  | asl
  | lsr
  | rol
  | ror
  -- 46_control_transfer.md: control transfer
  | bcc
  | bcs
  | beq
  | bne
  | bmi
  | bpl
  | bvc
  | bvs
  | jmp
  | jsr
  | rts
  | rti
  -- 47_flags_system.md: flags, NOP, BRK
  | clc
  | sec
  | cli
  | sei
  | clv
  | cld
  | sed
  | nop
  | brk
  deriving DecidableEq, Repr

/-- An instruction: one constructor per row of the instruction table (30_encoding.md R76), named by its mnemonic and,
where the mnemonic has several rows or an operand, by its mode. `nn` is the operand byte, `addr` the operand word
`hh : ll`, `offset` the signed branch offset (R72). -/
inductive Instr where
  -- 42_load_store.md: loads and stores
  | ldaImm (nn : Byte)
  | ldaZp (nn : Byte)
  | ldaZpx (nn : Byte)
  | ldaAbs (addr : Word)
  | ldaAbx (addr : Word)
  | ldaAby (addr : Word)
  | ldaIzx (nn : Byte)
  | ldaIzy (nn : Byte)
  | ldxImm (nn : Byte)
  | ldxZp (nn : Byte)
  | ldxZpy (nn : Byte)
  | ldxAbs (addr : Word)
  | ldxAby (addr : Word)
  | ldyImm (nn : Byte)
  | ldyZp (nn : Byte)
  | ldyZpx (nn : Byte)
  | ldyAbs (addr : Word)
  | ldyAbx (addr : Word)
  | staZp (nn : Byte)
  | staZpx (nn : Byte)
  | staAbs (addr : Word)
  | staAbx (addr : Word)
  | staAby (addr : Word)
  | staIzx (nn : Byte)
  | staIzy (nn : Byte)
  | stxZp (nn : Byte)
  | stxZpy (nn : Byte)
  | stxAbs (addr : Word)
  | styZp (nn : Byte)
  | styZpx (nn : Byte)
  | styAbs (addr : Word)
  -- 43_transfer_stack.md: stack and transfers
  | pha
  | php
  | pla
  | plp
  | tsx
  | txs
  | tax
  | tay
  | txa
  | tya
  -- 44_arithmetic_logic.md: arithmetic, logic, compare, bit test
  | adcImm (nn : Byte)
  | adcZp (nn : Byte)
  | adcZpx (nn : Byte)
  | adcAbs (addr : Word)
  | adcAbx (addr : Word)
  | adcAby (addr : Word)
  | adcIzx (nn : Byte)
  | adcIzy (nn : Byte)
  | sbcImm (nn : Byte)
  | sbcZp (nn : Byte)
  | sbcZpx (nn : Byte)
  | sbcAbs (addr : Word)
  | sbcAbx (addr : Word)
  | sbcAby (addr : Word)
  | sbcIzx (nn : Byte)
  | sbcIzy (nn : Byte)
  | andImm (nn : Byte)
  | andZp (nn : Byte)
  | andZpx (nn : Byte)
  | andAbs (addr : Word)
  | andAbx (addr : Word)
  | andAby (addr : Word)
  | andIzx (nn : Byte)
  | andIzy (nn : Byte)
  | oraImm (nn : Byte)
  | oraZp (nn : Byte)
  | oraZpx (nn : Byte)
  | oraAbs (addr : Word)
  | oraAbx (addr : Word)
  | oraAby (addr : Word)
  | oraIzx (nn : Byte)
  | oraIzy (nn : Byte)
  | eorImm (nn : Byte)
  | eorZp (nn : Byte)
  | eorZpx (nn : Byte)
  | eorAbs (addr : Word)
  | eorAbx (addr : Word)
  | eorAby (addr : Word)
  | eorIzx (nn : Byte)
  | eorIzy (nn : Byte)
  | cmpImm (nn : Byte)
  | cmpZp (nn : Byte)
  | cmpZpx (nn : Byte)
  | cmpAbs (addr : Word)
  | cmpAbx (addr : Word)
  | cmpAby (addr : Word)
  | cmpIzx (nn : Byte)
  | cmpIzy (nn : Byte)
  | cpxImm (nn : Byte)
  | cpxZp (nn : Byte)
  | cpxAbs (addr : Word)
  | cpyImm (nn : Byte)
  | cpyZp (nn : Byte)
  | cpyAbs (addr : Word)
  | bitZp (nn : Byte)
  | bitAbs (addr : Word)
  -- 45_incdec_shift.md: increment, decrement, shift, rotate
  | incZp (nn : Byte)
  | incZpx (nn : Byte)
  | incAbs (addr : Word)
  | incAbx (addr : Word)
  | decZp (nn : Byte)
  | decZpx (nn : Byte)
  | decAbs (addr : Word)
  | decAbx (addr : Word)
  | inx
  | iny
  | dex
  | dey
  | aslAcc
  | aslZp (nn : Byte)
  | aslZpx (nn : Byte)
  | aslAbs (addr : Word)
  | aslAbx (addr : Word)
  | lsrAcc
  | lsrZp (nn : Byte)
  | lsrZpx (nn : Byte)
  | lsrAbs (addr : Word)
  | lsrAbx (addr : Word)
  | rolAcc
  | rolZp (nn : Byte)
  | rolZpx (nn : Byte)
  | rolAbs (addr : Word)
  | rolAbx (addr : Word)
  | rorAcc
  | rorZp (nn : Byte)
  | rorZpx (nn : Byte)
  | rorAbs (addr : Word)
  | rorAbx (addr : Word)
  -- 46_control_transfer.md: control transfer
  | bcc (offset : Int)
  | bcs (offset : Int)
  | beq (offset : Int)
  | bne (offset : Int)
  | bmi (offset : Int)
  | bpl (offset : Int)
  | bvc (offset : Int)
  | bvs (offset : Int)
  | jmpAbs (addr : Word)
  | jmpInd (addr : Word)
  | jsr (addr : Word)
  | rts
  | rti
  -- 47_flags_system.md: flags, NOP, BRK
  | clc
  | sec
  | cli
  | sei
  | clv
  | cld
  | sed
  | nop
  | brk
  deriving DecidableEq, Repr

/-- The mnemonic of an instruction (30_encoding.md R76). -/
def Instr.mnemonic : Instr → Mnemonic
  | .ldaImm _ | .ldaZp _ | .ldaZpx _ | .ldaAbs _ | .ldaAbx _ | .ldaAby _ | .ldaIzx _ | .ldaIzy _ => .lda
  | .ldxImm _ | .ldxZp _ | .ldxZpy _ | .ldxAbs _ | .ldxAby _ => .ldx
  | .ldyImm _ | .ldyZp _ | .ldyZpx _ | .ldyAbs _ | .ldyAbx _ => .ldy
  | .staZp _ | .staZpx _ | .staAbs _ | .staAbx _ | .staAby _ | .staIzx _ | .staIzy _ => .sta
  | .stxZp _ | .stxZpy _ | .stxAbs _ => .stx
  | .styZp _ | .styZpx _ | .styAbs _ => .sty
  | .pha => .pha
  | .php => .php
  | .pla => .pla
  | .plp => .plp
  | .tsx => .tsx
  | .txs => .txs
  | .tax => .tax
  | .tay => .tay
  | .txa => .txa
  | .tya => .tya
  | .adcImm _ | .adcZp _ | .adcZpx _ | .adcAbs _ | .adcAbx _ | .adcAby _ | .adcIzx _ | .adcIzy _ => .adc
  | .sbcImm _ | .sbcZp _ | .sbcZpx _ | .sbcAbs _ | .sbcAbx _ | .sbcAby _ | .sbcIzx _ | .sbcIzy _ => .sbc
  | .andImm _ | .andZp _ | .andZpx _ | .andAbs _ | .andAbx _ | .andAby _ | .andIzx _ | .andIzy _ => .and
  | .oraImm _ | .oraZp _ | .oraZpx _ | .oraAbs _ | .oraAbx _ | .oraAby _ | .oraIzx _ | .oraIzy _ => .ora
  | .eorImm _ | .eorZp _ | .eorZpx _ | .eorAbs _ | .eorAbx _ | .eorAby _ | .eorIzx _ | .eorIzy _ => .eor
  | .cmpImm _ | .cmpZp _ | .cmpZpx _ | .cmpAbs _ | .cmpAbx _ | .cmpAby _ | .cmpIzx _ | .cmpIzy _ => .cmp
  | .cpxImm _ | .cpxZp _ | .cpxAbs _ => .cpx
  | .cpyImm _ | .cpyZp _ | .cpyAbs _ => .cpy
  | .bitZp _ | .bitAbs _ => .bit
  | .incZp _ | .incZpx _ | .incAbs _ | .incAbx _ => .inc
  | .decZp _ | .decZpx _ | .decAbs _ | .decAbx _ => .dec
  | .inx => .inx
  | .iny => .iny
  | .dex => .dex
  | .dey => .dey
  | .aslAcc | .aslZp _ | .aslZpx _ | .aslAbs _ | .aslAbx _ => .asl
  | .lsrAcc | .lsrZp _ | .lsrZpx _ | .lsrAbs _ | .lsrAbx _ => .lsr
  | .rolAcc | .rolZp _ | .rolZpx _ | .rolAbs _ | .rolAbx _ => .rol
  | .rorAcc | .rorZp _ | .rorZpx _ | .rorAbs _ | .rorAbx _ => .ror
  | .bcc _ => .bcc
  | .bcs _ => .bcs
  | .beq _ => .beq
  | .bne _ => .bne
  | .bmi _ => .bmi
  | .bpl _ => .bpl
  | .bvc _ => .bvc
  | .bvs _ => .bvs
  | .jmpAbs _ | .jmpInd _ => .jmp
  | .jsr _ => .jsr
  | .rts => .rts
  | .rti => .rti
  | .clc => .clc
  | .sec => .sec
  | .cli => .cli
  | .sei => .sei
  | .clv => .clv
  | .cld => .cld
  | .sed => .sed
  | .nop => .nop
  | .brk => .brk

/-- The addressing mode of an instruction (30_encoding.md R76). -/
def Instr.mode : Instr → Mode
  | .pha | .php | .pla | .plp | .tsx | .txs | .tax | .tay | .txa | .tya | .inx | .iny | .dex | .dey | .rts
  | .rti | .clc | .sec | .cli | .sei | .clv | .cld | .sed | .nop | .brk => .imp
  | .aslAcc | .lsrAcc | .rolAcc | .rorAcc => .acc
  | .ldaImm _ | .ldxImm _ | .ldyImm _ | .adcImm _ | .sbcImm _ | .andImm _ | .oraImm _ | .eorImm _ | .cmpImm _
  | .cpxImm _ | .cpyImm _ => .imm
  | .ldaZp _ | .ldxZp _ | .ldyZp _ | .staZp _ | .stxZp _ | .styZp _ | .adcZp _ | .sbcZp _ | .andZp _ | .oraZp _
  | .eorZp _ | .cmpZp _ | .cpxZp _ | .cpyZp _ | .bitZp _ | .incZp _ | .decZp _ | .aslZp _ | .lsrZp _ | .rolZp _
  | .rorZp _ => .zp
  | .ldaZpx _ | .ldyZpx _ | .staZpx _ | .styZpx _ | .adcZpx _ | .sbcZpx _ | .andZpx _ | .oraZpx _ | .eorZpx _
  | .cmpZpx _ | .incZpx _ | .decZpx _ | .aslZpx _ | .lsrZpx _ | .rolZpx _ | .rorZpx _ => .zpx
  | .ldxZpy _ | .stxZpy _ => .zpy
  | .ldaAbs _ | .ldxAbs _ | .ldyAbs _ | .staAbs _ | .stxAbs _ | .styAbs _ | .adcAbs _ | .sbcAbs _ | .andAbs _
  | .oraAbs _ | .eorAbs _ | .cmpAbs _ | .cpxAbs _ | .cpyAbs _ | .bitAbs _ | .incAbs _ | .decAbs _ | .aslAbs _
  | .lsrAbs _ | .rolAbs _ | .rorAbs _ | .jmpAbs _ | .jsr _ => .abs
  | .ldaAbx _ | .ldyAbx _ | .staAbx _ | .adcAbx _ | .sbcAbx _ | .andAbx _ | .oraAbx _ | .eorAbx _ | .cmpAbx _
  | .incAbx _ | .decAbx _ | .aslAbx _ | .lsrAbx _ | .rolAbx _ | .rorAbx _ => .abx
  | .ldaAby _ | .ldxAby _ | .staAby _ | .adcAby _ | .sbcAby _ | .andAby _ | .oraAby _ | .eorAby _ | .cmpAby _ => .aby
  | .ldaIzx _ | .staIzx _ | .adcIzx _ | .sbcIzx _ | .andIzx _ | .oraIzx _ | .eorIzx _ | .cmpIzx _ => .izx
  | .ldaIzy _ | .staIzy _ | .adcIzy _ | .sbcIzy _ | .andIzy _ | .oraIzy _ | .eorIzy _ | .cmpIzy _ => .izy
  | .bcc _ | .bcs _ | .beq _ | .bne _ | .bmi _ | .bpl _ | .bvc _ | .bvs _ => .rel
  | .jmpInd _ => .ind

/-- How many operand bytes follow the opcode byte in a mode (30_encoding.md R71, 41_addressing_modes.md R134). -/
def Mode.operandBytes : Mode → Nat
  | .imp | .acc => 0
  | .imm | .zp | .zpx | .zpy | .izx | .izy | .rel => 1
  | .abs | .abx | .aby | .ind => 2

/-- The number of bytes of an instruction: the opcode byte and its operand bytes (30_encoding.md R70). -/
def Instr.length (i : Instr) : Nat := 1 + i.mode.operandBytes

end Sys2Proof
end

