-- ==== Sys2Proof/WellFormed.lean ====
section
/-! DEFINITION. Which `Instr` terms are instructions: a branch offset is one two's-complement byte; every other operand
type holds exactly the values its field admits. -/

namespace Sys2Proof

/-- "one signed-offset byte (two's-complement, range -128..127)" (30_encoding.md R72). -/
abbrev OffsetInRange (offset : Int) : Prop := -128 ≤ offset ∧ offset ≤ 127

/-- The well-formed instructions: those the encoding can hold. -/
def Instr.WellFormed : Instr → Bool
  | .bcc o | .bcs o | .beq o | .bne o | .bmi o | .bpl o | .bvc o | .bvs o => decide (OffsetInRange o)
  | .ldaImm _ | .ldaZp _ | .ldaZpx _ | .ldaAbs _ | .ldaAbx _ | .ldaAby _ | .ldaIzx _ | .ldaIzy _ | .ldxImm _
  | .ldxZp _ | .ldxZpy _ | .ldxAbs _ | .ldxAby _ | .ldyImm _ | .ldyZp _ | .ldyZpx _ | .ldyAbs _ | .ldyAbx _
  | .staZp _ | .staZpx _ | .staAbs _ | .staAbx _ | .staAby _ | .staIzx _ | .staIzy _ | .stxZp _ | .stxZpy _
  | .stxAbs _ | .styZp _ | .styZpx _ | .styAbs _ | .pha | .php | .pla | .plp | .tsx | .txs | .tax | .tay | .txa
  | .tya | .adcImm _ | .adcZp _ | .adcZpx _ | .adcAbs _ | .adcAbx _ | .adcAby _ | .adcIzx _ | .adcIzy _
  | .sbcImm _ | .sbcZp _ | .sbcZpx _ | .sbcAbs _ | .sbcAbx _ | .sbcAby _ | .sbcIzx _ | .sbcIzy _ | .andImm _
  | .andZp _ | .andZpx _ | .andAbs _ | .andAbx _ | .andAby _ | .andIzx _ | .andIzy _ | .oraImm _ | .oraZp _
  | .oraZpx _ | .oraAbs _ | .oraAbx _ | .oraAby _ | .oraIzx _ | .oraIzy _ | .eorImm _ | .eorZp _ | .eorZpx _
  | .eorAbs _ | .eorAbx _ | .eorAby _ | .eorIzx _ | .eorIzy _ | .cmpImm _ | .cmpZp _ | .cmpZpx _ | .cmpAbs _
  | .cmpAbx _ | .cmpAby _ | .cmpIzx _ | .cmpIzy _ | .cpxImm _ | .cpxZp _ | .cpxAbs _ | .cpyImm _ | .cpyZp _
  | .cpyAbs _ | .bitZp _ | .bitAbs _ | .incZp _ | .incZpx _ | .incAbs _ | .incAbx _ | .decZp _ | .decZpx _
  | .decAbs _ | .decAbx _ | .inx | .iny | .dex | .dey | .aslAcc | .aslZp _ | .aslZpx _ | .aslAbs _ | .aslAbx _
  | .lsrAcc | .lsrZp _ | .lsrZpx _ | .lsrAbs _ | .lsrAbx _ | .rolAcc | .rolZp _ | .rolZpx _ | .rolAbs _
  | .rolAbx _ | .rorAcc | .rorZp _ | .rorZpx _ | .rorAbs _ | .rorAbx _ | .jmpAbs _ | .jmpInd _ | .jsr _ | .rts
  | .rti | .clc | .sec | .cli | .sei | .clv | .cld | .sed | .nop | .brk => true

end Sys2Proof
end

