-- ==== Sys2Proof/Decode.lean ====
section
/-! DEFINITION. Bytes to instructions and back: the byte-order helpers, the 256-slot opcode map (30_encoding.md R71,
R76), the decoder (total, refusing by name), the encoder, the instruction table the sequencer binds (10_state.md
R29), and `decodeTableWord`. -/

namespace Sys2Proof

/-- The 16-bit value `hh : ll` (30_encoding.md R72, 20_memory.md R50). -/
def wordOf (hh ll : Byte) : Word := BitVec.ofNat 16 (hh.toNat * 256 + ll.toNat)

/-- `w[7:0]`. -/
def lowByte (w : Word) : Byte := BitVec.ofNat 8 w.toNat

/-- `w[15:8]`. -/
def highByte (w : Word) : Byte := BitVec.ofNat 8 (w.toNat / 256)

/-- Why bytes are no instruction. -/
inductive DecodeError where
  /-- The opcode byte selects an unpopulated slot: one of the 105 illegal opcodes (30_encoding.md R78). -/
  | illegalOpcode (op : Byte)
  /-- The bytes end before the instruction does. -/
  | truncated
  deriving DecidableEq, Repr

/-- What an opcode byte selects: the instruction as a function of its operand (30_encoding.md R71, formats F1, F2,
F3; the branch offset is the two's-complement reading of its byte, R72). -/
inductive Form where
  | bare (i : Instr)
  | byte (f : Byte → Instr)
  | offset (f : Int → Instr)
  | word (f : Word → Instr)

/-- The opcode map: the 151 populated slots of 30_encoding.md R76; every other byte is illegal (R78). -/
def opcodeMap (op : Byte) : Option Form :=
  match op with
  | 0x00 => some (.bare .brk)
  | 0x01 => some (.byte .oraIzx)
  | 0x05 => some (.byte .oraZp)
  | 0x06 => some (.byte .aslZp)
  | 0x08 => some (.bare .php)
  | 0x09 => some (.byte .oraImm)
  | 0x0A => some (.bare .aslAcc)
  | 0x0D => some (.word .oraAbs)
  | 0x0E => some (.word .aslAbs)
  | 0x10 => some (.offset .bpl)
  | 0x11 => some (.byte .oraIzy)
  | 0x15 => some (.byte .oraZpx)
  | 0x16 => some (.byte .aslZpx)
  | 0x18 => some (.bare .clc)
  | 0x19 => some (.word .oraAby)
  | 0x1D => some (.word .oraAbx)
  | 0x1E => some (.word .aslAbx)
  | 0x20 => some (.word .jsr)
  | 0x21 => some (.byte .andIzx)
  | 0x24 => some (.byte .bitZp)
  | 0x25 => some (.byte .andZp)
  | 0x26 => some (.byte .rolZp)
  | 0x28 => some (.bare .plp)
  | 0x29 => some (.byte .andImm)
  | 0x2A => some (.bare .rolAcc)
  | 0x2C => some (.word .bitAbs)
  | 0x2D => some (.word .andAbs)
  | 0x2E => some (.word .rolAbs)
  | 0x30 => some (.offset .bmi)
  | 0x31 => some (.byte .andIzy)
  | 0x35 => some (.byte .andZpx)
  | 0x36 => some (.byte .rolZpx)
  | 0x38 => some (.bare .sec)
  | 0x39 => some (.word .andAby)
  | 0x3D => some (.word .andAbx)
  | 0x3E => some (.word .rolAbx)
  | 0x40 => some (.bare .rti)
  | 0x41 => some (.byte .eorIzx)
  | 0x45 => some (.byte .eorZp)
  | 0x46 => some (.byte .lsrZp)
  | 0x48 => some (.bare .pha)
  | 0x49 => some (.byte .eorImm)
  | 0x4A => some (.bare .lsrAcc)
  | 0x4C => some (.word .jmpAbs)
  | 0x4D => some (.word .eorAbs)
  | 0x4E => some (.word .lsrAbs)
  | 0x50 => some (.offset .bvc)
  | 0x51 => some (.byte .eorIzy)
  | 0x55 => some (.byte .eorZpx)
  | 0x56 => some (.byte .lsrZpx)
  | 0x58 => some (.bare .cli)
  | 0x59 => some (.word .eorAby)
  | 0x5D => some (.word .eorAbx)
  | 0x5E => some (.word .lsrAbx)
  | 0x60 => some (.bare .rts)
  | 0x61 => some (.byte .adcIzx)
  | 0x65 => some (.byte .adcZp)
  | 0x66 => some (.byte .rorZp)
  | 0x68 => some (.bare .pla)
  | 0x69 => some (.byte .adcImm)
  | 0x6A => some (.bare .rorAcc)
  | 0x6C => some (.word .jmpInd)
  | 0x6D => some (.word .adcAbs)
  | 0x6E => some (.word .rorAbs)
  | 0x70 => some (.offset .bvs)
  | 0x71 => some (.byte .adcIzy)
  | 0x75 => some (.byte .adcZpx)
  | 0x76 => some (.byte .rorZpx)
  | 0x78 => some (.bare .sei)
  | 0x79 => some (.word .adcAby)
  | 0x7D => some (.word .adcAbx)
  | 0x7E => some (.word .rorAbx)
  | 0x81 => some (.byte .staIzx)
  | 0x84 => some (.byte .styZp)
  | 0x85 => some (.byte .staZp)
  | 0x86 => some (.byte .stxZp)
  | 0x88 => some (.bare .dey)
  | 0x8A => some (.bare .txa)
  | 0x8C => some (.word .styAbs)
  | 0x8D => some (.word .staAbs)
  | 0x8E => some (.word .stxAbs)
  | 0x90 => some (.offset .bcc)
  | 0x91 => some (.byte .staIzy)
  | 0x94 => some (.byte .styZpx)
  | 0x95 => some (.byte .staZpx)
  | 0x96 => some (.byte .stxZpy)
  | 0x98 => some (.bare .tya)
  | 0x99 => some (.word .staAby)
  | 0x9A => some (.bare .txs)
  | 0x9D => some (.word .staAbx)
  | 0xA0 => some (.byte .ldyImm)
  | 0xA1 => some (.byte .ldaIzx)
  | 0xA2 => some (.byte .ldxImm)
  | 0xA4 => some (.byte .ldyZp)
  | 0xA5 => some (.byte .ldaZp)
  | 0xA6 => some (.byte .ldxZp)
  | 0xA8 => some (.bare .tay)
  | 0xA9 => some (.byte .ldaImm)
  | 0xAA => some (.bare .tax)
  | 0xAC => some (.word .ldyAbs)
  | 0xAD => some (.word .ldaAbs)
  | 0xAE => some (.word .ldxAbs)
  | 0xB0 => some (.offset .bcs)
  | 0xB1 => some (.byte .ldaIzy)
  | 0xB4 => some (.byte .ldyZpx)
  | 0xB5 => some (.byte .ldaZpx)
  | 0xB6 => some (.byte .ldxZpy)
  | 0xB8 => some (.bare .clv)
  | 0xB9 => some (.word .ldaAby)
  | 0xBA => some (.bare .tsx)
  | 0xBC => some (.word .ldyAbx)
  | 0xBD => some (.word .ldaAbx)
  | 0xBE => some (.word .ldxAby)
  | 0xC0 => some (.byte .cpyImm)
  | 0xC1 => some (.byte .cmpIzx)
  | 0xC4 => some (.byte .cpyZp)
  | 0xC5 => some (.byte .cmpZp)
  | 0xC6 => some (.byte .decZp)
  | 0xC8 => some (.bare .iny)
  | 0xC9 => some (.byte .cmpImm)
  | 0xCA => some (.bare .dex)
  | 0xCC => some (.word .cpyAbs)
  | 0xCD => some (.word .cmpAbs)
  | 0xCE => some (.word .decAbs)
  | 0xD0 => some (.offset .bne)
  | 0xD1 => some (.byte .cmpIzy)
  | 0xD5 => some (.byte .cmpZpx)
  | 0xD6 => some (.byte .decZpx)
  | 0xD8 => some (.bare .cld)
  | 0xD9 => some (.word .cmpAby)
  | 0xDD => some (.word .cmpAbx)
  | 0xDE => some (.word .decAbx)
  | 0xE0 => some (.byte .cpxImm)
  | 0xE1 => some (.byte .sbcIzx)
  | 0xE4 => some (.byte .cpxZp)
  | 0xE5 => some (.byte .sbcZp)
  | 0xE6 => some (.byte .incZp)
  | 0xE8 => some (.bare .inx)
  | 0xE9 => some (.byte .sbcImm)
  | 0xEA => some (.bare .nop)
  | 0xEC => some (.word .cpxAbs)
  | 0xED => some (.word .sbcAbs)
  | 0xEE => some (.word .incAbs)
  | 0xF0 => some (.offset .beq)
  | 0xF1 => some (.byte .sbcIzy)
  | 0xF5 => some (.byte .sbcZpx)
  | 0xF6 => some (.byte .incZpx)
  | 0xF8 => some (.bare .sed)
  | 0xF9 => some (.word .sbcAby)
  | 0xFD => some (.word .sbcAbx)
  | 0xFE => some (.word .incAbx)
  | _ => none

/-- Reads one instruction off the front of a list of bytes and returns the bytes after it (30_encoding.md R70 to R73):
the opcode byte alone selects the form, then come zero, one or two operand bytes, low byte first. -/
def decode : List Byte → Except DecodeError (Instr × List Byte)
  | [] => .error .truncated
  | op :: rest =>
    match opcodeMap op, rest with
    | none, _ => .error (.illegalOpcode op)
    | some (.bare i), rest => .ok (i, rest)
    | some (.byte f), nn :: rest => .ok (f nn, rest)
    | some (.offset f), oo :: rest => .ok (f oo.toInt, rest)
    | some (.word f), ll :: hh :: rest => .ok (f (wordOf hh ll), rest)
    | some _, _ => .error .truncated

/-- The bytes of an instruction, from the same table (30_encoding.md R71, R76): the opcode byte, then the operand, a
16-bit operand low byte first. -/
def encode : Instr → List Byte
  | .ldaImm nn => [0xA9, nn]
  | .ldaZp nn => [0xA5, nn]
  | .ldaZpx nn => [0xB5, nn]
  | .ldaAbs addr => [0xAD, lowByte addr, highByte addr]
  | .ldaAbx addr => [0xBD, lowByte addr, highByte addr]
  | .ldaAby addr => [0xB9, lowByte addr, highByte addr]
  | .ldaIzx nn => [0xA1, nn]
  | .ldaIzy nn => [0xB1, nn]
  | .ldxImm nn => [0xA2, nn]
  | .ldxZp nn => [0xA6, nn]
  | .ldxZpy nn => [0xB6, nn]
  | .ldxAbs addr => [0xAE, lowByte addr, highByte addr]
  | .ldxAby addr => [0xBE, lowByte addr, highByte addr]
  | .ldyImm nn => [0xA0, nn]
  | .ldyZp nn => [0xA4, nn]
  | .ldyZpx nn => [0xB4, nn]
  | .ldyAbs addr => [0xAC, lowByte addr, highByte addr]
  | .ldyAbx addr => [0xBC, lowByte addr, highByte addr]
  | .staZp nn => [0x85, nn]
  | .staZpx nn => [0x95, nn]
  | .staAbs addr => [0x8D, lowByte addr, highByte addr]
  | .staAbx addr => [0x9D, lowByte addr, highByte addr]
  | .staAby addr => [0x99, lowByte addr, highByte addr]
  | .staIzx nn => [0x81, nn]
  | .staIzy nn => [0x91, nn]
  | .stxZp nn => [0x86, nn]
  | .stxZpy nn => [0x96, nn]
  | .stxAbs addr => [0x8E, lowByte addr, highByte addr]
  | .styZp nn => [0x84, nn]
  | .styZpx nn => [0x94, nn]
  | .styAbs addr => [0x8C, lowByte addr, highByte addr]
  | .pha => [0x48]
  | .php => [0x08]
  | .pla => [0x68]
  | .plp => [0x28]
  | .tsx => [0xBA]
  | .txs => [0x9A]
  | .tax => [0xAA]
  | .tay => [0xA8]
  | .txa => [0x8A]
  | .tya => [0x98]
  | .adcImm nn => [0x69, nn]
  | .adcZp nn => [0x65, nn]
  | .adcZpx nn => [0x75, nn]
  | .adcAbs addr => [0x6D, lowByte addr, highByte addr]
  | .adcAbx addr => [0x7D, lowByte addr, highByte addr]
  | .adcAby addr => [0x79, lowByte addr, highByte addr]
  | .adcIzx nn => [0x61, nn]
  | .adcIzy nn => [0x71, nn]
  | .sbcImm nn => [0xE9, nn]
  | .sbcZp nn => [0xE5, nn]
  | .sbcZpx nn => [0xF5, nn]
  | .sbcAbs addr => [0xED, lowByte addr, highByte addr]
  | .sbcAbx addr => [0xFD, lowByte addr, highByte addr]
  | .sbcAby addr => [0xF9, lowByte addr, highByte addr]
  | .sbcIzx nn => [0xE1, nn]
  | .sbcIzy nn => [0xF1, nn]
  | .andImm nn => [0x29, nn]
  | .andZp nn => [0x25, nn]
  | .andZpx nn => [0x35, nn]
  | .andAbs addr => [0x2D, lowByte addr, highByte addr]
  | .andAbx addr => [0x3D, lowByte addr, highByte addr]
  | .andAby addr => [0x39, lowByte addr, highByte addr]
  | .andIzx nn => [0x21, nn]
  | .andIzy nn => [0x31, nn]
  | .oraImm nn => [0x09, nn]
  | .oraZp nn => [0x05, nn]
  | .oraZpx nn => [0x15, nn]
  | .oraAbs addr => [0x0D, lowByte addr, highByte addr]
  | .oraAbx addr => [0x1D, lowByte addr, highByte addr]
  | .oraAby addr => [0x19, lowByte addr, highByte addr]
  | .oraIzx nn => [0x01, nn]
  | .oraIzy nn => [0x11, nn]
  | .eorImm nn => [0x49, nn]
  | .eorZp nn => [0x45, nn]
  | .eorZpx nn => [0x55, nn]
  | .eorAbs addr => [0x4D, lowByte addr, highByte addr]
  | .eorAbx addr => [0x5D, lowByte addr, highByte addr]
  | .eorAby addr => [0x59, lowByte addr, highByte addr]
  | .eorIzx nn => [0x41, nn]
  | .eorIzy nn => [0x51, nn]
  | .cmpImm nn => [0xC9, nn]
  | .cmpZp nn => [0xC5, nn]
  | .cmpZpx nn => [0xD5, nn]
  | .cmpAbs addr => [0xCD, lowByte addr, highByte addr]
  | .cmpAbx addr => [0xDD, lowByte addr, highByte addr]
  | .cmpAby addr => [0xD9, lowByte addr, highByte addr]
  | .cmpIzx nn => [0xC1, nn]
  | .cmpIzy nn => [0xD1, nn]
  | .cpxImm nn => [0xE0, nn]
  | .cpxZp nn => [0xE4, nn]
  | .cpxAbs addr => [0xEC, lowByte addr, highByte addr]
  | .cpyImm nn => [0xC0, nn]
  | .cpyZp nn => [0xC4, nn]
  | .cpyAbs addr => [0xCC, lowByte addr, highByte addr]
  | .bitZp nn => [0x24, nn]
  | .bitAbs addr => [0x2C, lowByte addr, highByte addr]
  | .incZp nn => [0xE6, nn]
  | .incZpx nn => [0xF6, nn]
  | .incAbs addr => [0xEE, lowByte addr, highByte addr]
  | .incAbx addr => [0xFE, lowByte addr, highByte addr]
  | .decZp nn => [0xC6, nn]
  | .decZpx nn => [0xD6, nn]
  | .decAbs addr => [0xCE, lowByte addr, highByte addr]
  | .decAbx addr => [0xDE, lowByte addr, highByte addr]
  | .inx => [0xE8]
  | .iny => [0xC8]
  | .dex => [0xCA]
  | .dey => [0x88]
  | .aslAcc => [0x0A]
  | .aslZp nn => [0x06, nn]
  | .aslZpx nn => [0x16, nn]
  | .aslAbs addr => [0x0E, lowByte addr, highByte addr]
  | .aslAbx addr => [0x1E, lowByte addr, highByte addr]
  | .lsrAcc => [0x4A]
  | .lsrZp nn => [0x46, nn]
  | .lsrZpx nn => [0x56, nn]
  | .lsrAbs addr => [0x4E, lowByte addr, highByte addr]
  | .lsrAbx addr => [0x5E, lowByte addr, highByte addr]
  | .rolAcc => [0x2A]
  | .rolZp nn => [0x26, nn]
  | .rolZpx nn => [0x36, nn]
  | .rolAbs addr => [0x2E, lowByte addr, highByte addr]
  | .rolAbx addr => [0x3E, lowByte addr, highByte addr]
  | .rorAcc => [0x6A]
  | .rorZp nn => [0x66, nn]
  | .rorZpx nn => [0x76, nn]
  | .rorAbs addr => [0x6E, lowByte addr, highByte addr]
  | .rorAbx addr => [0x7E, lowByte addr, highByte addr]
  | .bcc offset => [0x90, BitVec.ofInt 8 offset]
  | .bcs offset => [0xB0, BitVec.ofInt 8 offset]
  | .beq offset => [0xF0, BitVec.ofInt 8 offset]
  | .bne offset => [0xD0, BitVec.ofInt 8 offset]
  | .bmi offset => [0x30, BitVec.ofInt 8 offset]
  | .bpl offset => [0x10, BitVec.ofInt 8 offset]
  | .bvc offset => [0x50, BitVec.ofInt 8 offset]
  | .bvs offset => [0x70, BitVec.ofInt 8 offset]
  | .jmpAbs addr => [0x4C, lowByte addr, highByte addr]
  | .jmpInd addr => [0x6C, lowByte addr, highByte addr]
  | .jsr addr => [0x20, lowByte addr, highByte addr]
  | .rts => [0x60]
  | .rti => [0x40]
  | .clc => [0x18]
  | .sec => [0x38]
  | .cli => [0x58]
  | .sei => [0x78]
  | .clv => [0xB8]
  | .cld => [0xD8]
  | .sed => [0xF8]
  | .nop => [0xEA]
  | .brk => [0x00]

/-- One populated entry of the instruction table (10_state.md R29): the mnemonic, the addressing mode, and the declared
total cycle count T (30_encoding.md R75; 0 for BRK, which declares none; for a branch the count when not taken). -/
structure Entry where
  mnemonic : Mnemonic
  mode : Mode
  total : Nat
  deriving DecidableEq, Repr

/-- The instruction table, 256 slots of which 151 are populated (30_encoding.md R76). -/
def table (op : Byte) : Option Entry :=
  match op with
  | 0x00 => some ⟨.brk, .imp, 0⟩
  | 0x01 => some ⟨.ora, .izx, 6⟩
  | 0x05 => some ⟨.ora, .zp, 3⟩
  | 0x06 => some ⟨.asl, .zp, 5⟩
  | 0x08 => some ⟨.php, .imp, 3⟩
  | 0x09 => some ⟨.ora, .imm, 2⟩
  | 0x0A => some ⟨.asl, .acc, 2⟩
  | 0x0D => some ⟨.ora, .abs, 4⟩
  | 0x0E => some ⟨.asl, .abs, 6⟩
  | 0x10 => some ⟨.bpl, .rel, 2⟩
  | 0x11 => some ⟨.ora, .izy, 5⟩
  | 0x15 => some ⟨.ora, .zpx, 4⟩
  | 0x16 => some ⟨.asl, .zpx, 6⟩
  | 0x18 => some ⟨.clc, .imp, 2⟩
  | 0x19 => some ⟨.ora, .aby, 4⟩
  | 0x1D => some ⟨.ora, .abx, 4⟩
  | 0x1E => some ⟨.asl, .abx, 7⟩
  | 0x20 => some ⟨.jsr, .abs, 6⟩
  | 0x21 => some ⟨.and, .izx, 6⟩
  | 0x24 => some ⟨.bit, .zp, 3⟩
  | 0x25 => some ⟨.and, .zp, 3⟩
  | 0x26 => some ⟨.rol, .zp, 5⟩
  | 0x28 => some ⟨.plp, .imp, 4⟩
  | 0x29 => some ⟨.and, .imm, 2⟩
  | 0x2A => some ⟨.rol, .acc, 2⟩
  | 0x2C => some ⟨.bit, .abs, 4⟩
  | 0x2D => some ⟨.and, .abs, 4⟩
  | 0x2E => some ⟨.rol, .abs, 6⟩
  | 0x30 => some ⟨.bmi, .rel, 2⟩
  | 0x31 => some ⟨.and, .izy, 5⟩
  | 0x35 => some ⟨.and, .zpx, 4⟩
  | 0x36 => some ⟨.rol, .zpx, 6⟩
  | 0x38 => some ⟨.sec, .imp, 2⟩
  | 0x39 => some ⟨.and, .aby, 4⟩
  | 0x3D => some ⟨.and, .abx, 4⟩
  | 0x3E => some ⟨.rol, .abx, 7⟩
  | 0x40 => some ⟨.rti, .imp, 6⟩
  | 0x41 => some ⟨.eor, .izx, 6⟩
  | 0x45 => some ⟨.eor, .zp, 3⟩
  | 0x46 => some ⟨.lsr, .zp, 5⟩
  | 0x48 => some ⟨.pha, .imp, 3⟩
  | 0x49 => some ⟨.eor, .imm, 2⟩
  | 0x4A => some ⟨.lsr, .acc, 2⟩
  | 0x4C => some ⟨.jmp, .abs, 3⟩
  | 0x4D => some ⟨.eor, .abs, 4⟩
  | 0x4E => some ⟨.lsr, .abs, 6⟩
  | 0x50 => some ⟨.bvc, .rel, 2⟩
  | 0x51 => some ⟨.eor, .izy, 5⟩
  | 0x55 => some ⟨.eor, .zpx, 4⟩
  | 0x56 => some ⟨.lsr, .zpx, 6⟩
  | 0x58 => some ⟨.cli, .imp, 2⟩
  | 0x59 => some ⟨.eor, .aby, 4⟩
  | 0x5D => some ⟨.eor, .abx, 4⟩
  | 0x5E => some ⟨.lsr, .abx, 7⟩
  | 0x60 => some ⟨.rts, .imp, 6⟩
  | 0x61 => some ⟨.adc, .izx, 6⟩
  | 0x65 => some ⟨.adc, .zp, 3⟩
  | 0x66 => some ⟨.ror, .zp, 5⟩
  | 0x68 => some ⟨.pla, .imp, 4⟩
  | 0x69 => some ⟨.adc, .imm, 2⟩
  | 0x6A => some ⟨.ror, .acc, 2⟩
  | 0x6C => some ⟨.jmp, .ind, 5⟩
  | 0x6D => some ⟨.adc, .abs, 4⟩
  | 0x6E => some ⟨.ror, .abs, 6⟩
  | 0x70 => some ⟨.bvs, .rel, 2⟩
  | 0x71 => some ⟨.adc, .izy, 5⟩
  | 0x75 => some ⟨.adc, .zpx, 4⟩
  | 0x76 => some ⟨.ror, .zpx, 6⟩
  | 0x78 => some ⟨.sei, .imp, 2⟩
  | 0x79 => some ⟨.adc, .aby, 4⟩
  | 0x7D => some ⟨.adc, .abx, 4⟩
  | 0x7E => some ⟨.ror, .abx, 7⟩
  | 0x81 => some ⟨.sta, .izx, 4⟩
  | 0x84 => some ⟨.sty, .zp, 3⟩
  | 0x85 => some ⟨.sta, .zp, 4⟩
  | 0x86 => some ⟨.stx, .zp, 3⟩
  | 0x88 => some ⟨.dey, .imp, 2⟩
  | 0x8A => some ⟨.txa, .imp, 2⟩
  | 0x8C => some ⟨.sty, .abs, 4⟩
  | 0x8D => some ⟨.sta, .abs, 4⟩
  | 0x8E => some ⟨.stx, .abs, 4⟩
  | 0x90 => some ⟨.bcc, .rel, 2⟩
  | 0x91 => some ⟨.sta, .izy, 4⟩
  | 0x94 => some ⟨.sty, .zpx, 4⟩
  | 0x95 => some ⟨.sta, .zpx, 4⟩
  | 0x96 => some ⟨.stx, .zpy, 4⟩
  | 0x98 => some ⟨.tya, .imp, 2⟩
  | 0x99 => some ⟨.sta, .aby, 4⟩
  | 0x9A => some ⟨.txs, .imp, 2⟩
  | 0x9D => some ⟨.sta, .abx, 4⟩
  | 0xA0 => some ⟨.ldy, .imm, 2⟩
  | 0xA1 => some ⟨.lda, .izx, 4⟩
  | 0xA2 => some ⟨.ldx, .imm, 2⟩
  | 0xA4 => some ⟨.ldy, .zp, 3⟩
  | 0xA5 => some ⟨.lda, .zp, 4⟩
  | 0xA6 => some ⟨.ldx, .zp, 3⟩
  | 0xA8 => some ⟨.tay, .imp, 2⟩
  | 0xA9 => some ⟨.lda, .imm, 4⟩
  | 0xAA => some ⟨.tax, .imp, 2⟩
  | 0xAC => some ⟨.ldy, .abs, 4⟩
  | 0xAD => some ⟨.lda, .abs, 4⟩
  | 0xAE => some ⟨.ldx, .abs, 4⟩
  | 0xB0 => some ⟨.bcs, .rel, 2⟩
  | 0xB1 => some ⟨.lda, .izy, 4⟩
  | 0xB4 => some ⟨.ldy, .zpx, 4⟩
  | 0xB5 => some ⟨.lda, .zpx, 4⟩
  | 0xB6 => some ⟨.ldx, .zpy, 4⟩
  | 0xB8 => some ⟨.clv, .imp, 2⟩
  | 0xB9 => some ⟨.lda, .aby, 4⟩
  | 0xBA => some ⟨.tsx, .imp, 2⟩
  | 0xBC => some ⟨.ldy, .abx, 4⟩
  | 0xBD => some ⟨.lda, .abx, 4⟩
  | 0xBE => some ⟨.ldx, .aby, 4⟩
  | 0xC0 => some ⟨.cpy, .imm, 2⟩
  | 0xC1 => some ⟨.cmp, .izx, 6⟩
  | 0xC4 => some ⟨.cpy, .zp, 3⟩
  | 0xC5 => some ⟨.cmp, .zp, 3⟩
  | 0xC6 => some ⟨.dec, .zp, 5⟩
  | 0xC8 => some ⟨.iny, .imp, 2⟩
  | 0xC9 => some ⟨.cmp, .imm, 2⟩
  | 0xCA => some ⟨.dex, .imp, 2⟩
  | 0xCC => some ⟨.cpy, .abs, 4⟩
  | 0xCD => some ⟨.cmp, .abs, 4⟩
  | 0xCE => some ⟨.dec, .abs, 6⟩
  | 0xD0 => some ⟨.bne, .rel, 2⟩
  | 0xD1 => some ⟨.cmp, .izy, 5⟩
  | 0xD5 => some ⟨.cmp, .zpx, 4⟩
  | 0xD6 => some ⟨.dec, .zpx, 6⟩
  | 0xD8 => some ⟨.cld, .imp, 2⟩
  | 0xD9 => some ⟨.cmp, .aby, 4⟩
  | 0xDD => some ⟨.cmp, .abx, 4⟩
  | 0xDE => some ⟨.dec, .abx, 7⟩
  | 0xE0 => some ⟨.cpx, .imm, 2⟩
  | 0xE1 => some ⟨.sbc, .izx, 6⟩
  | 0xE4 => some ⟨.cpx, .zp, 3⟩
  | 0xE5 => some ⟨.sbc, .zp, 3⟩
  | 0xE6 => some ⟨.inc, .zp, 6⟩
  | 0xE8 => some ⟨.inx, .imp, 2⟩
  | 0xE9 => some ⟨.sbc, .imm, 2⟩
  | 0xEA => some ⟨.nop, .imp, 2⟩
  | 0xEC => some ⟨.cpx, .abs, 4⟩
  | 0xED => some ⟨.sbc, .abs, 4⟩
  | 0xEE => some ⟨.inc, .abs, 6⟩
  | 0xF0 => some ⟨.beq, .rel, 2⟩
  | 0xF1 => some ⟨.sbc, .izy, 5⟩
  | 0xF5 => some ⟨.sbc, .zpx, 4⟩
  | 0xF6 => some ⟨.inc, .zpx, 6⟩
  | 0xF8 => some ⟨.sed, .imp, 2⟩
  | 0xF9 => some ⟨.sbc, .aby, 4⟩
  | 0xFD => some ⟨.sbc, .abx, 4⟩
  | 0xFE => some ⟨.inc, .abx, 6⟩
  | _ => none

/-- The 105 illegal opcode bytes, row by row (30_encoding.md R78). -/
def illegalBytes : List Byte :=
  [0x02, 0x03, 0x04, 0x07, 0x0B, 0x0C, 0x0F] ++
  [0x12, 0x13, 0x14, 0x17, 0x1A, 0x1B, 0x1C, 0x1F] ++
  [0x22, 0x23, 0x27, 0x2B, 0x2F] ++
  [0x32, 0x33, 0x34, 0x37, 0x3A, 0x3B, 0x3C, 0x3F] ++
  [0x42, 0x43, 0x44, 0x47, 0x4B, 0x4F] ++
  [0x52, 0x53, 0x54, 0x57, 0x5A, 0x5B, 0x5C, 0x5F] ++
  [0x62, 0x63, 0x64, 0x67, 0x6B, 0x6F] ++
  [0x72, 0x73, 0x74, 0x77, 0x7A, 0x7B, 0x7C, 0x7F] ++
  [0x80, 0x82, 0x83, 0x87, 0x89, 0x8B, 0x8F] ++
  [0x92, 0x93, 0x97, 0x9B, 0x9C, 0x9E, 0x9F] ++
  [0xA3, 0xA7, 0xAB, 0xAF] ++
  [0xB2, 0xB3, 0xB7, 0xBB, 0xBF] ++
  [0xC2, 0xC3, 0xC7, 0xCB, 0xCF] ++
  [0xD2, 0xD3, 0xD4, 0xD7, 0xDA, 0xDB, 0xDC, 0xDF] ++
  [0xE2, 0xE3, 0xE7, 0xEB, 0xEF] ++
  [0xF2, 0xF3, 0xF4, 0xF7, 0xFA, 0xFB, 0xFC, 0xFF]

/-- The three bytes a number holds, first byte least significant (the numbering of spec/opcode_table.json). -/
def bytesOfWord (w : Nat) : List Byte := [BitVec.ofNat 8 w, BitVec.ofNat 8 (w / 256), BitVec.ofNat 8 (w / 65536)]

/-- The instruction the decoder reads from the low `nbits` bits of `w`, the first byte least significant; every bit
above them is 0, so operand bytes the table gives no bits are zeros. -/
def decodeTableWord (nbits w : Nat) : Option Instr :=
  match decode (bytesOfWord (w % 2 ^ nbits)) with
  | .ok (i, _) => some i
  | .error _ => none

end Sys2Proof
end

