-- ==== Sys2Proof/Config.lean ====
section
/-! DEFINITION. What is fixed from outside the core: the open power-on parameters of 00_scope.md R5, the device windows
(20_memory.md R45, 92_eei_decisions.md D11), and the one decided parameter PC_INIT (D6). No free value is needed: the
spec leaves no result of an instruction open. -/

namespace Sys2Proof

/-- A memory device's mapped window `[start, start + size)` (20_memory.md R45). -/
structure Window where
  start : Nat
  size : Nat
  deriving DecidableEq, Repr

/-- What power-on takes as arguments (00_scope.md R5, 10_state.md R33, 70_reset_and_hazards.md R250): the open register
values, the byte the bus record holds, the device windows and the memory image. -/
structure PowerOn where
  /-- A_INIT -/
  a : Byte
  /-- X_INIT -/
  x : Byte
  /-- Y_INIT -/
  y : Byte
  /-- S_INIT -/
  sp : Byte
  /-- P_INIT, constrained to bit 5 = 1: State.powerOn sets that bit (10_state.md R18) -/
  p : Byte
  /-- LATCH_INIT -/
  latch : Byte
  /-- `bus.value`, unspecified at power-on -/
  busValue : Byte
  /-- the device windows, D11 -/
  devices : List Window
  /-- the union of the devices' arrays as loaded by the host (70_reset_and_hazards.md R256 item 1) -/
  mem : List Host.Cell
  deriving DecidableEq, Repr

namespace Config

/-- PC_INIT, the address of the one discarded power-on read (92_eei_decisions.md D6). -/
def pcInit : Word := 0x0000

/-- The parameters `State.reset` uses. DESIGN CHOICE, unsafe (log entries 1, 3, 4): the spec leaves every register value
here open but bit 5 of P, leaves the windows to the platform, and gives no memory contents. -/
def resetParameters : PowerOn where
  a := 0x00
  x := 0x00
  y := 0x00
  sp := 0x00
  p := 0x20
  latch := 0x00
  busValue := 0x00
  devices := [⟨0, 65536⟩]
  mem := []

end Config

end Sys2Proof
end

