-- ==== Sys2Proof/Machine/State.lean ====
section
/-! DEFINITION. The state of the core, its bus record and its memory as plain data (10_state.md, 20_memory.md), the
sequencer's micro-steps (40_clock_step_sequencer.md R109), the reasons a step can stop, and the state after power-on. -/

namespace Sys2Proof.Machine

/-- The flags of P, under the names of 10_state.md R16. -/
inductive Flag where
  | c  -- P[0] carry
  | z  -- P[1] zero
  | i  -- P[2] interrupt disable
  | d  -- P[3] decimal
  | b  -- P[4] break
  | u  -- P[5] unused, always 1
  | v  -- P[6] overflow
  | n  -- P[7] negative
  deriving DecidableEq, Repr

/-- `bus.direction` (20_memory.md R40). -/
inductive Direction where
  | read
  | write
  deriving DecidableEq, Repr

/-- The one shared bus record (20_memory.md R40); it keeps its contents until the next assertion (10_state.md R28). -/
structure Bus where
  dir : Direction
  addr : Word
  value : Byte
  deriving DecidableEq, Repr

/-- The union of the devices' byte arrays (20_memory.md R55): address and byte pairs in canonical form. -/
abbrev Memory := List Host.Cell

/-- The two kinds of diagnostic, each with its one datum (60_exceptions.md R230). -/
inductive Diagnostic where
  | illegalOpcode (op : Byte)
  | cycleUnderflow (remaining : Int)
  deriving DecidableEq, Repr

/-- A diagnostic event: its kind and the tick whose core step raised it (20_memory.md R41, 60_exceptions.md R230). -/
structure DiagEvent where
  tick : Nat
  kind : Diagnostic
  deriving DecidableEq, Repr

/-- The values a suspended sequence keeps across ticks (10_state.md R23): a low byte already read, a pointer, the
effective address, and a byte to be written. -/
structure Tmp where
  lo : Byte
  ptr : Word
  ea : Word
  val : Byte
  deriving DecidableEq, Repr

/-- The micro-steps a sequence is a list of (40_clock_step_sequencer.md R109). What each does is
`Machine/Sequencer.lean`; the comments name the pseudocode it stands for. -/
inductive Micro where
  | immediate               -- ea <- PC; PC <- PC + 1
  | fetch8                  -- Fetch8(), one suspension
  | keepLow                 -- lo <- the byte just read
  | zeroPage                -- ea <- zext_16(nn)
  | zeroPageX               -- ea <- (nn + X) & 0xFF
  | zeroPageY               -- ea <- (nn + Y) & 0xFF
  | absolute                -- ea <- (hh << 8) | ll
  | absoluteX               -- ea <- base + X, counting a page crossing
  | absoluteY               -- ea <- base + Y, counting a page crossing
  | pointerZp               -- ptr <- zext_16(nn)
  | pointerZpX              -- ptr <- (nn + X) & 0xFF
  | pointerAbs              -- ptr <- (hh << 8) | ll
  | readPtr                 -- MemRead(ptr, 1), one suspension
  | readPtrNext             -- MemRead of the byte after ptr in ptr's page, one suspension
  | relative                -- ea <- PC + sext_16(oo)
  | read                    -- MemRead(ea, 1), one suspension
  | write                   -- MemWrite(ea, 1, val), one suspension
  | operate (op : Mnemonic) -- the register and flag effect of op on the byte just read
  | source (op : Mnemonic)  -- val <- the byte op stores or pushes
  | modify (op : Mnemonic)  -- val <- f(v) of a read-modify-write on memory
  | modifyA (op : Mnemonic) -- A <- f(A)
  | push                    -- Push(val), one suspension
  | pull                    -- Pull(), one suspension
  | returnHigh              -- val <- (PC - 1)[15:8]
  | returnLow               -- val <- (PC - 1)[7:0]
  | jump                    -- PC <- ea
  | resume (plus : Word)    -- PC <- ((hi << 8) | lo) + plus
  | branch (op : Mnemonic)  -- the branch decision and its Stall
  | stall (total : Nat)     -- Stall(T)
  | suspend                 -- one stall tick already decided
  | halt                    -- halted <- 1
  | resetSequence           -- the reset sequence from its start, one suspension
  | readAt (addr : Word)    -- MemRead(addr, 1), one suspension
  | loadVector              -- PC <- (hi << 8) | lo; A, X, Y <- 0
  deriving DecidableEq, Repr

/-- The sequencer state (10_state.md R23): no instruction in flight, or a suspended sequence: the micro-steps still to
run (the cursor over the fixed list) and the temporaries. -/
inductive Seq where
  | idle
  | exec (rest : List Micro) (tmp : Tmp)
  deriving DecidableEq, Repr

/-- The temporaries of a sequence at its start: nothing has been read yet. -/
def Tmp.start : Tmp := ⟨0, 0, 0, 0⟩

/-- The reset sequence with its cursor at its start (70_reset_and_hazards.md R253). -/
def Seq.resetStart : Seq := .exec [.resetSequence] Tmp.start

/-- The machine: the core's registers and execution state (10_state.md R10 to R27), the bus record (R28), the memory
side the core sees (20_memory.md R45), and the model's two records of outputs. -/
structure State where
  /-- the accumulator A (10_state.md R11) -/
  a : Byte
  /-- the index register X (R12) -/
  x : Byte
  /-- the index register Y (R12) -/
  y : Byte
  /-- the stack pointer S (R13) -/
  sp : Byte
  /-- the status register P as stored; `State.status` is how it reads (R16, R18) -/
  p : Byte
  /-- the program counter PC (R14) -/
  pc : Word
  /-- `halted` (R22) -/
  halted : Bool
  /-- `seq`, the sequencer state with its temporaries (R23) -/
  seq : Seq
  /-- `cyc`, the cycle counter of the instruction in flight (R24) -/
  cyc : Nat
  /-- `extra`, the extra-stall counter (R25) -/
  extra : Nat
  /-- `pending`, the pending-read marker (R26) -/
  pending : Bool
  /-- `latch`, the pending-read latch (R27) -/
  latch : Byte
  /-- the bus record (R28, 20_memory.md R40) -/
  bus : Bus
  /-- the windows of the memory devices (20_memory.md R45); no step changes them -/
  devices : List Window
  /-- the union of the devices' arrays (20_memory.md R55) -/
  mem : Memory
  /-- the model's own: how many ticks have been taken, the host's count of `cycle()` calls (60_exceptions.md R239) -/
  ticks : Nat
  /-- the model's own: the diagnostics emitted so far, newest first; nothing reads them (60_exceptions.md R230) -/
  diags : List DiagEvent
  deriving DecidableEq, Repr

/-- There is no fault: the spec's error categories never stop the machine and no exception transfers control
(60_exceptions.md R234). Safe: nothing raises one. -/
inductive Fault where
  deriving DecidableEq, Repr

/-- Why the model gives no move. -/
inductive Refusal where
  /-- Raised by an arm of `exec` whose instruction has no meaning yet; no arm raises it. Safe. -/
  | notModelled (mnemonic : String)
  /-- Raised by `State.hostReset`: `reset()` with a sequence in flight (70_reset_and_hazards.md R253,
  93_implementation_defined.md U1). Safe: the spec asks a model to refuse it. -/
  | resetMidInstruction
  /-- Raised by the register write accessors while `seq` is not Idle (10_state.md R32, 93_implementation_defined.md
  U5). Safe: the spec gives no move. -/
  | registerWriteMidInstruction
  /-- Raised by `State.construct` for device windows that overlap (20_memory.md R48, 93_implementation_defined.md U3).
  Safe: the spec asks a model to refuse such a configuration. -/
  | overlappingWindows
  /-- Raised by `State.construct` where no device backs a byte of the reset vector (70_reset_and_hazards.md R256 item 2,
  93_implementation_defined.md U10). Safe: the spec asks a model to refuse such a configuration. -/
  | resetVectorUnbacked
  deriving DecidableEq, Repr

/-- `PowerOn()` (70_reset_and_hazards.md R250, the first column of 10_state.md R33): the open parameters, P with bit 5
set, the opcode read of PC_INIT asserted, and the reset sequence at its start. No tick has elapsed. -/
def State.powerOn (c : PowerOn) : State where
  a := c.a
  x := c.x
  y := c.y
  sp := c.sp
  p := c.p ||| 0x20
  pc := Config.pcInit + 1
  halted := false
  seq := .resetStart
  cyc := 0
  extra := 0
  pending := true
  latch := c.latch
  bus := ⟨.read, Config.pcInit, c.busValue⟩
  devices := c.devices
  mem := c.mem
  ticks := 0
  diags := []

/-- The machine right after power-on, before its first tick; the reset sequence then runs in its first eleven ticks
(log entry 2). The open parameters have the values of `Config.resetParameters` (log entries 1, 3, 4). -/
def State.reset : State := State.powerOn Config.resetParameters

end Sys2Proof.Machine
end

