-- ==== Sys2Proof/Machine/Memory.lean ====
section
/-! DEFINITION. Memory as address and byte pairs in one canonical form: addresses strictly rising and below 65536, no
entry equal to what an unlisted address reads as (20_memory.md R49). -/

namespace Sys2Proof.Machine

/-- What an address no entry lists reads as. DESIGN CHOICE, unsafe (log entry 3): the spec gives no initial contents. -/
def Memory.unlisted : Byte := 0x00

/-- The byte at an address. -/
def Memory.lookup : Memory → Nat → Byte
  | [], _ => Memory.unlisted
  | (k, b) :: m, a => if k = a then b else Memory.lookup m a

/-- Puts a byte at an address, keeping the addresses rising and dropping an entry that reads as unlisted. -/
def Memory.insert : Memory → Nat → Byte → Memory
  | [], a, v => if v = Memory.unlisted then [] else [(a, v)]
  | (k, b) :: m, a, v =>
    if a < k then (if v = Memory.unlisted then (k, b) :: m else (a, v) :: (k, b) :: m)
    else if a = k then (if v = Memory.unlisted then m else (a, v) :: m)
    else (k, b) :: Memory.insert m a v

/-- The byte stored at a bus address. -/
def Memory.read (m : Memory) (a : Word) : Byte := Memory.lookup m a.toNat

/-- The memory after a byte is stored at a bus address. -/
def Memory.write (m : Memory) (a : Word) (v : Byte) : Memory := Memory.insert m a.toNat v

/-- Whether every address of a memory lies above `low` and the canonical form holds from there on. -/
def Memory.wfAbove : Option Nat → Memory → Bool
  | _, [] => true
  | low, (k, b) :: m =>
    low.all (fun l => decide (l < k)) && decide (k < 65536) && decide (b ≠ Memory.unlisted) && Memory.wfAbove (some k) m

/-- The canonical form: addresses strictly rising, below 65536, no entry that reads as unlisted. -/
def Memory.wf (m : Memory) : Bool := Memory.wfAbove none m

end Sys2Proof.Machine
end

