-- ==== Sys2Proof/Machine/Update.lean ====
section
/-! DEFINITION. The named updates of the state, one per field; every other operation writes the state through them. -/

namespace Sys2Proof.Machine.State

/-- The state with `a` replaced. -/
def setA (s : State) (v : Byte) : State := { s with a := v }

/-- The state with `x` replaced. -/
def setX (s : State) (v : Byte) : State := { s with x := v }

/-- The state with `y` replaced. -/
def setY (s : State) (v : Byte) : State := { s with y := v }

/-- The state with `sp` replaced. -/
def setSp (s : State) (v : Byte) : State := { s with sp := v }

/-- The state with `p` replaced. -/
def setP (s : State) (v : Byte) : State := { s with p := v }

/-- The state with `pc` replaced. -/
def setPc (s : State) (v : Word) : State := { s with pc := v }

/-- The state with `halted` replaced. -/
def setHalted (s : State) (v : Bool) : State := { s with halted := v }

/-- The state with `seq` replaced. -/
def setSeq (s : State) (v : Seq) : State := { s with seq := v }

/-- The state with `cyc` replaced. -/
def setCyc (s : State) (v : Nat) : State := { s with cyc := v }

/-- The state with `extra` replaced. -/
def setExtra (s : State) (v : Nat) : State := { s with extra := v }

/-- The state with `pending` replaced. -/
def setPending (s : State) (v : Bool) : State := { s with pending := v }

/-- The state with `latch` replaced. -/
def setLatch (s : State) (v : Byte) : State := { s with latch := v }

/-- The state with `bus` replaced. -/
def setBus (s : State) (v : Bus) : State := { s with bus := v }

/-- The state with `devices` replaced. -/
def setDevices (s : State) (v : List Window) : State := { s with devices := v }

/-- The state with `mem` replaced. -/
def setMem (s : State) (v : Memory) : State := { s with mem := v }

/-- The state with `ticks` replaced. -/
def setTicks (s : State) (v : Nat) : State := { s with ticks := v }

/-- The state with `diags` replaced. -/
def setDiags (s : State) (v : List DiagEvent) : State := { s with diags := v }

end Sys2Proof.Machine.State
end

