-- ==== Sys2Proof/Machine/Ops.lean ====
section
/-! DEFINITION. The operations every instruction uses, written at the tick level: the device phase, the capture, the bus
assertions and the suspension between two ticks (20_memory.md, 40_clock_step_sequencer.md), the stack, the stall, the
opcode fetch, and what the core does where other machines take an exception (60_exceptions.md). -/

namespace Sys2Proof.Machine.State

/-! ## The device side of the bus -/

/-- Whether some device's window holds the address (20_memory.md R45). -/
def backed (s : State) (a : Word) : Bool :=
  s.devices.any (fun w => decide (w.start ≤ a.toNat) && decide (a.toNat < w.start + w.size))

/-- The value the bus holds after a device phase that serves a read of `a` while it held `held`: the stored byte, or the
stale value where no device answers (20_memory.md R45, R46). -/
def serve (s : State) (held : Byte) (a : Word) : Byte :=
  if s.backed a then s.mem.read a else held

/-- The device phase of a tick (20_memory.md R43, R45): every device acts on the bus record as it stands. -/
def devicePhase (s : State) : State :=
  match s.bus.dir with
  | .read => s.setBus { s.bus with value := s.serve s.bus.value s.bus.addr }
  | .write => if s.backed s.bus.addr then s.setMem (s.mem.write s.bus.addr s.bus.value) else s

/-- The start of a tick: the host's count goes up and the device phase runs (20_memory.md R43). -/
def beginTick (s : State) : State := (s.setTicks (s.ticks + 1)).devicePhase

/-! ## The core side of the bus -/

/-- Step 2 of the clock step (40_clock_step_sequencer.md R92, 10_state.md R26): a pending read is captured. -/
def capture (s : State) : State :=
  if s.pending then (s.setLatch s.bus.value).setPending false else s

/-- A read assertion (20_memory.md R42): direction and address; `bus.value` stays (10_state.md R28). -/
def assertRead (s : State) (a : Word) : State :=
  (s.setBus { s.bus with dir := .read, addr := a }).setPending true

/-- A write assertion (20_memory.md R44); `pending` stays (40_clock_step_sequencer.md R98). -/
def assertWrite (s : State) (a : Word) (v : Byte) : State := s.setBus ⟨.write, a, v⟩

/-- From one `suspend` of an instruction to where it resumes (40_clock_step_sequencer.md R95): the next tick's device
phase, the capture (R92 step 2) and the increment of `cyc` (R92 step 4a). -/
def nextTick (s : State) : State :=
  let s := s.beginTick.capture
  s.setCyc (s.cyc + 1)

/-- `MemRead(a, 1)` (40_clock_step_sequencer.md R97): the byte latched, and the state where the sequence resumes. -/
def memRead (s : State) (a : Word) : Byte × State :=
  let s := (s.assertRead a).nextTick
  (s.latch, s)

/-- `MemWrite(a, 1, v)` (40_clock_step_sequencer.md R98). -/
def memWrite (s : State) (a : Word) (v : Byte) : State := (s.assertWrite a v).nextTick

/-- `Fetch8()` (40_clock_step_sequencer.md R99): PC advances as the read is asserted. -/
def fetch8 (s : State) : Byte × State := (s.setPc (s.pc + 1)).memRead s.pc

/-- `IssueFetch()` (40_clock_step_sequencer.md R96): the opcode read at PC, then PC advances; no suspension. -/
def issueFetch (s : State) : State := (s.assertRead s.pc).setPc (s.pc + 1)

/-! ## The stack -/

/-- The address in the stack page that a stack pointer names, `0x0100 | S` (10_state.md R13). -/
def stackAddr (sp : Byte) : Word := 0x0100 ||| sp.setWidth 16

/-- `Push(v)` (43_transfer_stack.md R150): S is decremented as the write is asserted. -/
def push (s : State) (v : Byte) : State := (s.setSp (s.sp - 1)).memWrite (stackAddr s.sp) v

/-- `Pull()` (43_transfer_stack.md R151): S is incremented first. -/
def pull (s : State) : Byte × State := (s.setSp (s.sp + 1)).memRead (stackAddr (s.sp + 1))

/-! ## Stalls and diagnostics -/

/-- `Diag(kind, info)` (60_exceptions.md R230): recorded with the current tick; no other field changes. -/
def diag (s : State) (k : Diagnostic) : State := s.setDiags (⟨s.ticks, k⟩ :: s.diags)

/-- `T - (cyc + 1) + extra`, the remaining count of `Stall(T)` (40_clock_step_sequencer.md R101, R102). -/
def remaining (s : State) (total : Nat) : Int := (total : Int) - (s.cyc + 1) + s.extra

/-- The bookkeeping of `Stall(T)` before it suspends: `extra` is cleared, and a negative count is reported
(40_clock_step_sequencer.md R102, 60_exceptions.md R232). -/
def settle (s : State) (total : Nat) : State :=
  if s.remaining total < 0 then (s.setExtra 0).diag (.cycleUnderflow (s.remaining total)) else s.setExtra 0

/-- `suspend`, `n` times. -/
def suspends : Nat → State → State
  | 0, s => s
  | n + 1, s => suspends n s.nextTick

/-- `Stall(T)` (40_clock_step_sequencer.md R102): as many suspensions as remain, none if the count is negative. -/
def stall (s : State) (total : Nat) : State := suspends (s.remaining total).toNat (s.settle total)

/-! ## Where other machines take an exception

The core has no exception that transfers control, no interrupt and no trap entry (60_exceptions.md R233, R234, R236). Its
three categories are the skipped illegal opcode, the underflow reported by `settle`, and the halted state; the one
return, RTI, pulls what the program itself pushed (R236) and is `execRti`. -/

/-- An illegal opcode in a decode tick (60_exceptions.md R231): the diagnostic, and the next opcode fetch at once. -/
def skipIllegal (s : State) : State := (s.diag (.illegalOpcode s.latch)).issueFetch

/-- BRK's whole effect, `halted <- 1` (47_flags_system.md R226, 60_exceptions.md R243). -/
def halt (s : State) : State := s.setHalted true

/-- The end of an instruction's sequence (40_clock_step_sequencer.md R92 steps 3d, 4c): the next opcode fetch is asserted
in the same tick, but for BRK, whose sequence ends in its decode tick (R110). -/
def retire (s : State) : State := if s.halted then s else s.issueFetch

/-- P as it reads: bit 5 reads as 1 at all times (10_state.md R18). -/
def status (s : State) : Byte := s.p ||| 0x20

end Sys2Proof.Machine.State
end

