-- ==== Sys2Proof/Machine/Flags.lean ====
section
/-! DEFINITION. The flags of P and every flag computation of the spec (10_state.md R16 to R21, 44_arithmetic_logic.md,
45_incdec_shift.md). -/

namespace Sys2Proof.Machine

/-- The bit of P a flag is (10_state.md R16). -/
def Flag.bit : Flag → Nat
  | .c => 0 | .z => 1 | .i => 2 | .d => 3 | .b => 4 | .u => 5 | .v => 6 | .n => 7

/-- The byte with a flag's bit alone set. -/
def Flag.mask : Flag → Byte
  | .c => 0x01 | .z => 0x02 | .i => 0x04 | .d => 0x08 | .b => 0x10 | .u => 0x20 | .v => 0x40 | .n => 0x80

namespace State

/-- A flag's value. -/
def flag (s : State) (f : Flag) : Bool := s.p.getLsbD f.bit

/-- The state with one flag written and every other bit of P unchanged. -/
def setFlag (s : State) (f : Flag) (b : Bool) : State :=
  s.setP (if b then s.p ||| f.mask else s.p &&& ~~~f.mask)

/-- The carry as a number, 0 or 1. -/
def carry (s : State) : Nat := (s.flag .c).toNat

/-- `SetNZ(v)` (10_state.md R21): `N <- v[7]; Z <- (v == 0)`. -/
def setNZ (s : State) (v : Byte) : State := (s.setFlag .n v.msb).setFlag .z (v == 0)

/-- The bits of P that PLP and RTI take from the pulled byte, bits 5 and 4 keeping their value: `(v & 0xCF) | (P & 0x30)`
(43_transfer_stack.md R155, 46_control_transfer.md R208). -/
def restoreStatus (s : State) (v : Byte) : State := s.setP ((v &&& 0xCF) ||| (s.status &&& 0x30))

/-- The byte PHP pushes, `P | 0x30` (43_transfer_stack.md R153). -/
def pushedStatus (s : State) : Byte := s.status ||| 0x30

/-- `A + M + C` as a number (44_arithmetic_logic.md R166). -/
def sum (s : State) (m : Byte) : Nat := s.a.toNat + m.toNat + s.carry

/-- The signed overflow of `r = A + M` (44_arithmetic_logic.md R166): operands of equal sign, result of the other. -/
def overflow (a m r : Byte) : Bool := ((~~~(a ^^^ m) &&& (a ^^^ r)) &&& 0x80) != 0

/-- The addition of ADC (44_arithmetic_logic.md R166), binary whatever D holds (R165): C, V, A, N and Z. -/
def addWithCarry (s : State) (m : Byte) : State :=
  let r := BitVec.ofNat 8 (s.sum m)
  (((s.setFlag .c (decide (s.sum m > 0xFF))).setFlag .v (overflow s.a m r)).setA r).setNZ r

/-- The comparison of CMP, CPX and CPY (44_arithmetic_logic.md R171): C unsigned, Z, N of the difference. -/
def compare (s : State) (r m : Byte) : State :=
  ((s.setFlag .c (decide (r.toNat ≥ m.toNat))).setFlag .z (r == m)).setFlag .n (r - m).msb

/-- The bit test of BIT (44_arithmetic_logic.md R174): Z of `A & M`, N and V from M. -/
def bitTest (s : State) (m : Byte) : State :=
  ((s.setFlag .z ((s.a &&& m) == 0)).setFlag .n (m.getLsbD 7)).setFlag .v (m.getLsbD 6)

/-- `f` of INC (45_incdec_shift.md R181). -/
def increment (v : Byte) (s : State) : Byte × State := (v + 1, s.setNZ (v + 1))

/-- `f` of DEC (45_incdec_shift.md R182). -/
def decrement (v : Byte) (s : State) : Byte × State := (v - 1, s.setNZ (v - 1))

/-- `f` of ASL (45_incdec_shift.md R187): `C <- v[7]; w <- (v << 1) & 0xFF`. -/
def shiftLeft (v : Byte) (s : State) : Byte × State := (v <<< 1, (s.setFlag .c (v.getLsbD 7)).setNZ (v <<< 1))

/-- `f` of LSR (45_incdec_shift.md R188): `C <- v[0]; w <- v >> 1`. -/
def shiftRight (v : Byte) (s : State) : Byte × State := (v >>> 1, (s.setFlag .c (v.getLsbD 0)).setNZ (v >>> 1))

/-- `f` of ROL (45_incdec_shift.md R189): the old carry enters at bit 0. -/
def rotateLeft (v : Byte) (s : State) : Byte × State :=
  let w := (v <<< 1) ||| BitVec.ofNat 8 s.carry
  (w, (s.setFlag .c (v.getLsbD 7)).setNZ w)

/-- `f` of ROR (45_incdec_shift.md R190): the old carry enters at bit 7. -/
def rotateRight (v : Byte) (s : State) : Byte × State :=
  let w := (v >>> 1) ||| (BitVec.ofNat 8 s.carry <<< 7)
  (w, (s.setFlag .c (v.getLsbD 0)).setNZ w)

end State

end Sys2Proof.Machine
end

