-- ==== Sys2Proof/Machine/Operands.lean ====
section
/-! DEFINITION. The thirteen addressing-mode routines (41_addressing_modes.md). A routine makes its bus reads and returns
the effective address with the state where the operation starts. The value of an operand byte comes from the
instruction (`step` decodes the very bytes these reads deliver, log entry 7); every pointer byte comes from the bus. -/

namespace Sys2Proof.Machine

namespace State

/-- The bus read of one operand byte (30_encoding.md R73): `Fetch8()`, the byte itself being the instruction's. -/
def fetchOperand (s : State) : State := s.fetch8.2

/-- The indexed address `(base + index) & 0xFFFF`, counting a page crossing in `extra` (41_addressing_modes.md R133). -/
def indexed (s : State) (base : Word) (index : Byte) : Word × State :=
  let ea := base + index.setWidth 16
  (ea, if highByte ea ≠ highByte base then s.setExtra (s.extra + 1) else s)

end State

/-- Immediate (41_addressing_modes.md R121): the address of the operand byte; PC moves past it without a read. -/
def immediate (s : State) : Word × State := (s.pc, s.setPc (s.pc + 1))

/-- Zero-page (41_addressing_modes.md R122). -/
def zeroPage (nn : Byte) (s : State) : Word × State := (nn.setWidth 16, s.fetchOperand)

/-- Zero-page,X (41_addressing_modes.md R123): wraps inside page zero. -/
def zeroPageX (nn : Byte) (s : State) : Word × State :=
  let s := s.fetchOperand
  ((nn + s.x).setWidth 16, s)

/-- Zero-page,Y (41_addressing_modes.md R124): wraps inside page zero. -/
def zeroPageY (nn : Byte) (s : State) : Word × State :=
  let s := s.fetchOperand
  ((nn + s.y).setWidth 16, s)

/-- Absolute (41_addressing_modes.md R125). -/
def absolute (addr : Word) (s : State) : Word × State := (addr, s.fetchOperand.fetchOperand)

/-- Absolute,X (41_addressing_modes.md R126). -/
def absoluteX (addr : Word) (s : State) : Word × State :=
  let s := s.fetchOperand.fetchOperand
  s.indexed addr s.x

/-- Absolute,Y (41_addressing_modes.md R127). -/
def absoluteY (addr : Word) (s : State) : Word × State :=
  let s := s.fetchOperand.fetchOperand
  s.indexed addr s.y

/-- (Zero-page,X) (41_addressing_modes.md R128): both pointer bytes come from page zero. -/
def indexedIndirectX (nn : Byte) (s : State) : Word × State :=
  let s := s.fetchOperand
  let p := nn + s.x
  let lo := s.memRead (p.setWidth 16)
  let hi := lo.2.memRead ((p + 1).setWidth 16)
  (wordOf hi.1 lo.1, hi.2)

/-- (Zero-page),Y (41_addressing_modes.md R129): both pointer bytes come from page zero. -/
def indirectIndexedY (nn : Byte) (s : State) : Word × State :=
  let s := s.fetchOperand
  let lo := s.memRead (nn.setWidth 16)
  let hi := lo.2.memRead ((nn + 1).setWidth 16)
  hi.2.indexed (wordOf hi.1 lo.1) hi.2.y

/-- Relative (41_addressing_modes.md R130): the offset is added to the address of the next instruction. -/
def relative (offset : Int) (s : State) : Word × State :=
  let s := s.fetchOperand
  (s.pc + BitVec.ofInt 16 offset, s)

/-- The byte after `ptr` in `ptr`'s page (41_addressing_modes.md R132): `(ptr & 0xFF00) | ((ptr + 1) & 0x00FF)`. -/
def nextInPage (ptr : Word) : Word := (ptr &&& 0xFF00) ||| ((ptr + 1) &&& 0x00FF)

/-- Absolute-indirect (41_addressing_modes.md R132), with the page-wrap defect. -/
def absoluteIndirect (ptr : Word) (s : State) : Word × State :=
  let s := s.fetchOperand.fetchOperand
  let lo := s.memRead ptr
  let hi := lo.2.memRead (nextInPage ptr)
  (wordOf hi.1 lo.1, hi.2)

/-- The operand of the immediate mode (41_addressing_modes.md R121, 42_load_store.md R140): the operation reads it over
the bus at the address the mode returned; its value is the instruction's operand byte. -/
def immediateByte (nn : Byte) (s : State) : Byte × State :=
  let r := immediate s
  (nn, (r.2.memRead r.1).2)

/-- The operand byte `MemRead(ea, 1)` of a mode that returns an address (44_arithmetic_logic.md R176). -/
def byteAt (mode : State → Word × State) (s : State) : Byte × State :=
  let r := mode s
  r.2.memRead r.1

end Sys2Proof.Machine

namespace Sys2Proof

open Sys2Proof.Machine

/-- The effective address an instruction's own mode routine returns, and the state its operation starts in. For the
implied and accumulator modes there is no address (41_addressing_modes.md R131): the state is unchanged. -/
def Instr.address (i : Instr) (s : State) : Word × State :=
  match i with
  | .ldaImm _ | .ldxImm _ | .ldyImm _ | .adcImm _ | .sbcImm _ | .andImm _ | .oraImm _ | .eorImm _ | .cmpImm _
  | .cpxImm _ | .cpyImm _ => immediate s
  | .ldaZp nn | .ldxZp nn | .ldyZp nn | .staZp nn | .stxZp nn | .styZp nn | .adcZp nn | .sbcZp nn | .andZp nn
  | .oraZp nn | .eorZp nn | .cmpZp nn | .cpxZp nn | .cpyZp nn | .bitZp nn | .incZp nn | .decZp nn | .aslZp nn
  | .lsrZp nn | .rolZp nn | .rorZp nn => zeroPage nn s
  | .ldaZpx nn | .ldyZpx nn | .staZpx nn | .styZpx nn | .adcZpx nn | .sbcZpx nn | .andZpx nn | .oraZpx nn
  | .eorZpx nn | .cmpZpx nn | .incZpx nn | .decZpx nn | .aslZpx nn | .lsrZpx nn | .rolZpx nn | .rorZpx nn => zeroPageX nn s
  | .ldxZpy nn | .stxZpy nn => zeroPageY nn s
  | .ldaAbs addr | .ldxAbs addr | .ldyAbs addr | .staAbs addr | .stxAbs addr | .styAbs addr | .adcAbs addr
  | .sbcAbs addr | .andAbs addr | .oraAbs addr | .eorAbs addr | .cmpAbs addr | .cpxAbs addr | .cpyAbs addr
  | .bitAbs addr | .incAbs addr | .decAbs addr | .aslAbs addr | .lsrAbs addr | .rolAbs addr | .rorAbs addr
  | .jmpAbs addr | .jsr addr => absolute addr s
  | .ldaAbx addr | .ldyAbx addr | .staAbx addr | .adcAbx addr | .sbcAbx addr | .andAbx addr | .oraAbx addr
  | .eorAbx addr | .cmpAbx addr | .incAbx addr | .decAbx addr | .aslAbx addr | .lsrAbx addr | .rolAbx addr
  | .rorAbx addr => absoluteX addr s
  | .ldaAby addr | .ldxAby addr | .staAby addr | .adcAby addr | .sbcAby addr | .andAby addr | .oraAby addr
  | .eorAby addr | .cmpAby addr => absoluteY addr s
  | .ldaIzx nn | .staIzx nn | .adcIzx nn | .sbcIzx nn | .andIzx nn | .oraIzx nn | .eorIzx nn | .cmpIzx nn => indexedIndirectX nn s
  | .ldaIzy nn | .staIzy nn | .adcIzy nn | .sbcIzy nn | .andIzy nn | .oraIzy nn | .eorIzy nn | .cmpIzy nn => indirectIndexedY nn s
  | .bcc offset | .bcs offset | .beq offset | .bne offset | .bmi offset | .bpl offset | .bvc offset
  | .bvs offset => relative offset s
  | .jmpInd addr => absoluteIndirect addr s
  | .pha | .php | .pla | .plp | .tsx | .txs | .tax | .tay | .txa | .tya | .inx | .iny | .dex | .dey | .aslAcc
  | .lsrAcc | .rolAcc | .rorAcc | .rts | .rti | .clc | .sec | .cli | .sei | .clv | .cld | .sed | .nop | .brk => (0, s)

/-- The operand byte an instruction of the reading class takes, and the state after its read: the immediate operand, or
the byte at the effective address. -/
def Instr.source (i : Instr) (s : State) : Byte × State :=
  match i with
  | .ldaImm nn | .ldxImm nn | .ldyImm nn | .adcImm nn | .sbcImm nn | .andImm nn | .oraImm nn | .eorImm nn
  | .cmpImm nn | .cpxImm nn | .cpyImm nn => immediateByte nn s
  | .ldaZp _ | .ldaZpx _ | .ldaAbs _ | .ldaAbx _ | .ldaAby _ | .ldaIzx _ | .ldaIzy _ | .ldxZp _ | .ldxZpy _
  | .ldxAbs _ | .ldxAby _ | .ldyZp _ | .ldyZpx _ | .ldyAbs _ | .ldyAbx _ | .staZp _ | .staZpx _ | .staAbs _
  | .staAbx _ | .staAby _ | .staIzx _ | .staIzy _ | .stxZp _ | .stxZpy _ | .stxAbs _ | .styZp _ | .styZpx _
  | .styAbs _ | .pha | .php | .pla | .plp | .tsx | .txs | .tax | .tay | .txa | .tya | .adcZp _ | .adcZpx _
  | .adcAbs _ | .adcAbx _ | .adcAby _ | .adcIzx _ | .adcIzy _ | .sbcZp _ | .sbcZpx _ | .sbcAbs _ | .sbcAbx _
  | .sbcAby _ | .sbcIzx _ | .sbcIzy _ | .andZp _ | .andZpx _ | .andAbs _ | .andAbx _ | .andAby _ | .andIzx _
  | .andIzy _ | .oraZp _ | .oraZpx _ | .oraAbs _ | .oraAbx _ | .oraAby _ | .oraIzx _ | .oraIzy _ | .eorZp _
  | .eorZpx _ | .eorAbs _ | .eorAbx _ | .eorAby _ | .eorIzx _ | .eorIzy _ | .cmpZp _ | .cmpZpx _ | .cmpAbs _
  | .cmpAbx _ | .cmpAby _ | .cmpIzx _ | .cmpIzy _ | .cpxZp _ | .cpxAbs _ | .cpyZp _ | .cpyAbs _ | .bitZp _
  | .bitAbs _ | .incZp _ | .incZpx _ | .incAbs _ | .incAbx _ | .decZp _ | .decZpx _ | .decAbs _ | .decAbx _
  | .inx | .iny | .dex | .dey | .aslAcc | .aslZp _ | .aslZpx _ | .aslAbs _ | .aslAbx _ | .lsrAcc | .lsrZp _
  | .lsrZpx _ | .lsrAbs _ | .lsrAbx _ | .rolAcc | .rolZp _ | .rolZpx _ | .rolAbs _ | .rolAbx _ | .rorAcc
  | .rorZp _ | .rorZpx _ | .rorAbs _ | .rorAbx _ | .bcc _ | .bcs _ | .beq _ | .bne _ | .bmi _ | .bpl _ | .bvc _
  | .bvs _ | .jmpAbs _ | .jmpInd _ | .jsr _ | .rts | .rti | .clc | .sec | .cli | .sei | .clv | .cld | .sed
  | .nop | .brk => byteAt i.address s

end Sys2Proof
end

