-- ==== Sys2Proof/Machine/Shapes.lean ====
section
/-! DEFINITION. The shapes of the operations: each instruction is its mode routine, its effect and a final `Stall(T)`
(40_clock_step_sequencer.md R94), written once per class. -/

namespace Sys2Proof.Machine

/-- What a meaning answers. -/
abbrev Answer := Host.Outcome State Fault Refusal

/-- The reading class (42_load_store.md R141, 44_arithmetic_logic.md R176): one operand byte, an effect on registers and
flags, `Stall(T)`. -/
def readOp (source : State → Byte × State) (effect : Byte → State → State) (total : Nat) (s : State) : State :=
  let m := source s
  (effect m.1 m.2).stall total

/-- The storing class (42_load_store.md R144 to R146): one byte written at `ea`, `Stall(T)`. -/
def storeOp (mode : State → Word × State) (value : State → Byte) (total : Nat) (s : State) : State :=
  let ea := mode s
  (ea.2.memWrite ea.1 (value ea.2)).stall total

/-- `RMW(f)` (45_incdec_shift.md R180): one read and one write of `ea`, in that order. -/
def modifyOp (mode : State → Word × State) (f : Byte → State → Byte × State) (total : Nat) (s : State) : State :=
  let ea := mode s
  let v := ea.2.memRead ea.1
  let w := f v.1 v.2
  (w.2.memWrite ea.1 w.1).stall total

/-- `RMW_A(f)` (45_incdec_shift.md R180): the accumulator forms, no bus access. -/
def modifyAccOp (f : Byte → State → Byte × State) (total : Nat) (s : State) : State :=
  let w := f s.a s
  (w.2.setA w.1).stall total

/-- The register and flag class: an effect without an operand, no bus access (43_transfer_stack.md, 47_flags_system.md). -/
def impliedOp (effect : State → State) (total : Nat) (s : State) : State := (effect s).stall total

/-- The pushing class (43_transfer_stack.md R152, R153). -/
def pushOp (value : State → Byte) (total : Nat) (s : State) : State := (s.push (value s)).stall total

/-- The pulling class (43_transfer_stack.md R154, R155). -/
def pullOp (effect : Byte → State → State) (total : Nat) (s : State) : State :=
  let v := s.pull
  (effect v.1 v.2).stall total

/-- `Branch(cond)` (46_control_transfer.md R195): the target is computed in either case; a taken branch to another page
than the next instruction's counts one extra cycle. -/
def branchOp (cond : State → Bool) (offset : Int) (s : State) : State :=
  let tgt := relative offset s
  if cond tgt.2 then
    ((if highByte tgt.1 ≠ highByte tgt.2.pc then tgt.2.setExtra (tgt.2.extra + 1) else tgt.2).setPc tgt.1).stall 3
  else tgt.2.stall 2

end Sys2Proof.Machine
end

