-- ==== Sys2Proof/Machine/ArithLogic.lean ====
section
/-! DEFINITION. Arithmetic, logic, compare and bit-test instructions (44_arithmetic_logic.md). -/

namespace Sys2Proof.Machine

/-- The effect of ADC on its operand byte: the operand added with carry (44_arithmetic_logic.md R166). -/
def opAdc (m : Byte) (s : State) : State := s.addWithCarry m

/-- `ADC #$nn` (44_arithmetic_logic.md R166, 41_addressing_modes.md R121). -/
def execAdcImm (nn : Byte) (s : State) : Answer := .next (readOp (immediateByte nn) opAdc 2 s)

/-- `ADC $nn` (44_arithmetic_logic.md R166, 41_addressing_modes.md R122). -/
def execAdcZp (nn : Byte) (s : State) : Answer := .next (readOp (byteAt (zeroPage nn)) opAdc 3 s)

/-- `ADC $nn,X` (44_arithmetic_logic.md R166, 41_addressing_modes.md R123). -/
def execAdcZpx (nn : Byte) (s : State) : Answer := .next (readOp (byteAt (zeroPageX nn)) opAdc 4 s)

/-- `ADC $hhll` (44_arithmetic_logic.md R166, 41_addressing_modes.md R125). -/
def execAdcAbs (addr : Word) (s : State) : Answer := .next (readOp (byteAt (absolute addr)) opAdc 4 s)

/-- `ADC $hhll,X` (44_arithmetic_logic.md R166, 41_addressing_modes.md R126). -/
def execAdcAbx (addr : Word) (s : State) : Answer := .next (readOp (byteAt (absoluteX addr)) opAdc 4 s)

/-- `ADC $hhll,Y` (44_arithmetic_logic.md R166, 41_addressing_modes.md R127). -/
def execAdcAby (addr : Word) (s : State) : Answer := .next (readOp (byteAt (absoluteY addr)) opAdc 4 s)

/-- `ADC ($nn,X)` (44_arithmetic_logic.md R166, 41_addressing_modes.md R128). -/
def execAdcIzx (nn : Byte) (s : State) : Answer := .next (readOp (byteAt (indexedIndirectX nn)) opAdc 6 s)

/-- `ADC ($nn),Y` (44_arithmetic_logic.md R166, 41_addressing_modes.md R129). -/
def execAdcIzy (nn : Byte) (s : State) : Answer := .next (readOp (byteAt (indirectIndexedY nn)) opAdc 5 s)

/-- The effect of SBC on its operand byte: the operand's complement added with carry (44_arithmetic_logic.md R167). -/
def opSbc (m : Byte) (s : State) : State := s.addWithCarry (m ^^^ 0xFF)

/-- `SBC #$nn` (44_arithmetic_logic.md R167, 41_addressing_modes.md R121). -/
def execSbcImm (nn : Byte) (s : State) : Answer := .next (readOp (immediateByte nn) opSbc 2 s)

/-- `SBC $nn` (44_arithmetic_logic.md R167, 41_addressing_modes.md R122). -/
def execSbcZp (nn : Byte) (s : State) : Answer := .next (readOp (byteAt (zeroPage nn)) opSbc 3 s)

/-- `SBC $nn,X` (44_arithmetic_logic.md R167, 41_addressing_modes.md R123). -/
def execSbcZpx (nn : Byte) (s : State) : Answer := .next (readOp (byteAt (zeroPageX nn)) opSbc 4 s)

/-- `SBC $hhll` (44_arithmetic_logic.md R167, 41_addressing_modes.md R125). -/
def execSbcAbs (addr : Word) (s : State) : Answer := .next (readOp (byteAt (absolute addr)) opSbc 4 s)

/-- `SBC $hhll,X` (44_arithmetic_logic.md R167, 41_addressing_modes.md R126). -/
def execSbcAbx (addr : Word) (s : State) : Answer := .next (readOp (byteAt (absoluteX addr)) opSbc 4 s)

/-- `SBC $hhll,Y` (44_arithmetic_logic.md R167, 41_addressing_modes.md R127). -/
def execSbcAby (addr : Word) (s : State) : Answer := .next (readOp (byteAt (absoluteY addr)) opSbc 4 s)

/-- `SBC ($nn,X)` (44_arithmetic_logic.md R167, 41_addressing_modes.md R128). -/
def execSbcIzx (nn : Byte) (s : State) : Answer := .next (readOp (byteAt (indexedIndirectX nn)) opSbc 6 s)

/-- `SBC ($nn),Y` (44_arithmetic_logic.md R167, 41_addressing_modes.md R129). -/
def execSbcIzy (nn : Byte) (s : State) : Answer := .next (readOp (byteAt (indirectIndexedY nn)) opSbc 5 s)

/-- The effect of AND on its operand byte: and into A (44_arithmetic_logic.md R168). -/
def opAnd (m : Byte) (s : State) : State := (s.setA (s.a &&& m)).setNZ (s.a &&& m)

/-- `AND #$nn` (44_arithmetic_logic.md R168, 41_addressing_modes.md R121). -/
def execAndImm (nn : Byte) (s : State) : Answer := .next (readOp (immediateByte nn) opAnd 2 s)

/-- `AND $nn` (44_arithmetic_logic.md R168, 41_addressing_modes.md R122). -/
def execAndZp (nn : Byte) (s : State) : Answer := .next (readOp (byteAt (zeroPage nn)) opAnd 3 s)

/-- `AND $nn,X` (44_arithmetic_logic.md R168, 41_addressing_modes.md R123). -/
def execAndZpx (nn : Byte) (s : State) : Answer := .next (readOp (byteAt (zeroPageX nn)) opAnd 4 s)

/-- `AND $hhll` (44_arithmetic_logic.md R168, 41_addressing_modes.md R125). -/
def execAndAbs (addr : Word) (s : State) : Answer := .next (readOp (byteAt (absolute addr)) opAnd 4 s)

/-- `AND $hhll,X` (44_arithmetic_logic.md R168, 41_addressing_modes.md R126). -/
def execAndAbx (addr : Word) (s : State) : Answer := .next (readOp (byteAt (absoluteX addr)) opAnd 4 s)

/-- `AND $hhll,Y` (44_arithmetic_logic.md R168, 41_addressing_modes.md R127). -/
def execAndAby (addr : Word) (s : State) : Answer := .next (readOp (byteAt (absoluteY addr)) opAnd 4 s)

/-- `AND ($nn,X)` (44_arithmetic_logic.md R168, 41_addressing_modes.md R128). -/
def execAndIzx (nn : Byte) (s : State) : Answer := .next (readOp (byteAt (indexedIndirectX nn)) opAnd 6 s)

/-- `AND ($nn),Y` (44_arithmetic_logic.md R168, 41_addressing_modes.md R129). -/
def execAndIzy (nn : Byte) (s : State) : Answer := .next (readOp (byteAt (indirectIndexedY nn)) opAnd 5 s)

/-- The effect of ORA on its operand byte: inclusive or into A (44_arithmetic_logic.md R169). -/
def opOra (m : Byte) (s : State) : State := (s.setA (s.a ||| m)).setNZ (s.a ||| m)

/-- `ORA #$nn` (44_arithmetic_logic.md R169, 41_addressing_modes.md R121). -/
def execOraImm (nn : Byte) (s : State) : Answer := .next (readOp (immediateByte nn) opOra 2 s)

/-- `ORA $nn` (44_arithmetic_logic.md R169, 41_addressing_modes.md R122). -/
def execOraZp (nn : Byte) (s : State) : Answer := .next (readOp (byteAt (zeroPage nn)) opOra 3 s)

/-- `ORA $nn,X` (44_arithmetic_logic.md R169, 41_addressing_modes.md R123). -/
def execOraZpx (nn : Byte) (s : State) : Answer := .next (readOp (byteAt (zeroPageX nn)) opOra 4 s)

/-- `ORA $hhll` (44_arithmetic_logic.md R169, 41_addressing_modes.md R125). -/
def execOraAbs (addr : Word) (s : State) : Answer := .next (readOp (byteAt (absolute addr)) opOra 4 s)

/-- `ORA $hhll,X` (44_arithmetic_logic.md R169, 41_addressing_modes.md R126). -/
def execOraAbx (addr : Word) (s : State) : Answer := .next (readOp (byteAt (absoluteX addr)) opOra 4 s)

/-- `ORA $hhll,Y` (44_arithmetic_logic.md R169, 41_addressing_modes.md R127). -/
def execOraAby (addr : Word) (s : State) : Answer := .next (readOp (byteAt (absoluteY addr)) opOra 4 s)

/-- `ORA ($nn,X)` (44_arithmetic_logic.md R169, 41_addressing_modes.md R128). -/
def execOraIzx (nn : Byte) (s : State) : Answer := .next (readOp (byteAt (indexedIndirectX nn)) opOra 6 s)

/-- `ORA ($nn),Y` (44_arithmetic_logic.md R169, 41_addressing_modes.md R129). -/
def execOraIzy (nn : Byte) (s : State) : Answer := .next (readOp (byteAt (indirectIndexedY nn)) opOra 5 s)

/-- The effect of EOR on its operand byte: exclusive or into A (44_arithmetic_logic.md R170). -/
def opEor (m : Byte) (s : State) : State := (s.setA (s.a ^^^ m)).setNZ (s.a ^^^ m)

/-- `EOR #$nn` (44_arithmetic_logic.md R170, 41_addressing_modes.md R121). -/
def execEorImm (nn : Byte) (s : State) : Answer := .next (readOp (immediateByte nn) opEor 2 s)

/-- `EOR $nn` (44_arithmetic_logic.md R170, 41_addressing_modes.md R122). -/
def execEorZp (nn : Byte) (s : State) : Answer := .next (readOp (byteAt (zeroPage nn)) opEor 3 s)

/-- `EOR $nn,X` (44_arithmetic_logic.md R170, 41_addressing_modes.md R123). -/
def execEorZpx (nn : Byte) (s : State) : Answer := .next (readOp (byteAt (zeroPageX nn)) opEor 4 s)

/-- `EOR $hhll` (44_arithmetic_logic.md R170, 41_addressing_modes.md R125). -/
def execEorAbs (addr : Word) (s : State) : Answer := .next (readOp (byteAt (absolute addr)) opEor 4 s)

/-- `EOR $hhll,X` (44_arithmetic_logic.md R170, 41_addressing_modes.md R126). -/
def execEorAbx (addr : Word) (s : State) : Answer := .next (readOp (byteAt (absoluteX addr)) opEor 4 s)

/-- `EOR $hhll,Y` (44_arithmetic_logic.md R170, 41_addressing_modes.md R127). -/
def execEorAby (addr : Word) (s : State) : Answer := .next (readOp (byteAt (absoluteY addr)) opEor 4 s)

/-- `EOR ($nn,X)` (44_arithmetic_logic.md R170, 41_addressing_modes.md R128). -/
def execEorIzx (nn : Byte) (s : State) : Answer := .next (readOp (byteAt (indexedIndirectX nn)) opEor 6 s)

/-- `EOR ($nn),Y` (44_arithmetic_logic.md R170, 41_addressing_modes.md R129). -/
def execEorIzy (nn : Byte) (s : State) : Answer := .next (readOp (byteAt (indirectIndexedY nn)) opEor 5 s)

/-- The effect of CMP on its operand byte: A compared (44_arithmetic_logic.md R171). -/
def opCmp (m : Byte) (s : State) : State := s.compare s.a m

/-- `CMP #$nn` (44_arithmetic_logic.md R171, 41_addressing_modes.md R121). -/
def execCmpImm (nn : Byte) (s : State) : Answer := .next (readOp (immediateByte nn) opCmp 2 s)

/-- `CMP $nn` (44_arithmetic_logic.md R171, 41_addressing_modes.md R122). -/
def execCmpZp (nn : Byte) (s : State) : Answer := .next (readOp (byteAt (zeroPage nn)) opCmp 3 s)

/-- `CMP $nn,X` (44_arithmetic_logic.md R171, 41_addressing_modes.md R123). -/
def execCmpZpx (nn : Byte) (s : State) : Answer := .next (readOp (byteAt (zeroPageX nn)) opCmp 4 s)

/-- `CMP $hhll` (44_arithmetic_logic.md R171, 41_addressing_modes.md R125). -/
def execCmpAbs (addr : Word) (s : State) : Answer := .next (readOp (byteAt (absolute addr)) opCmp 4 s)

/-- `CMP $hhll,X` (44_arithmetic_logic.md R171, 41_addressing_modes.md R126). -/
def execCmpAbx (addr : Word) (s : State) : Answer := .next (readOp (byteAt (absoluteX addr)) opCmp 4 s)

/-- `CMP $hhll,Y` (44_arithmetic_logic.md R171, 41_addressing_modes.md R127). -/
def execCmpAby (addr : Word) (s : State) : Answer := .next (readOp (byteAt (absoluteY addr)) opCmp 4 s)

/-- `CMP ($nn,X)` (44_arithmetic_logic.md R171, 41_addressing_modes.md R128). -/
def execCmpIzx (nn : Byte) (s : State) : Answer := .next (readOp (byteAt (indexedIndirectX nn)) opCmp 6 s)

/-- `CMP ($nn),Y` (44_arithmetic_logic.md R171, 41_addressing_modes.md R129). -/
def execCmpIzy (nn : Byte) (s : State) : Answer := .next (readOp (byteAt (indirectIndexedY nn)) opCmp 5 s)

/-- The effect of CPX on its operand byte: X compared (44_arithmetic_logic.md R172). -/
def opCpx (m : Byte) (s : State) : State := s.compare s.x m

/-- `CPX #$nn` (44_arithmetic_logic.md R172, 41_addressing_modes.md R121). -/
def execCpxImm (nn : Byte) (s : State) : Answer := .next (readOp (immediateByte nn) opCpx 2 s)

/-- `CPX $nn` (44_arithmetic_logic.md R172, 41_addressing_modes.md R122). -/
def execCpxZp (nn : Byte) (s : State) : Answer := .next (readOp (byteAt (zeroPage nn)) opCpx 3 s)

/-- `CPX $hhll` (44_arithmetic_logic.md R172, 41_addressing_modes.md R125). -/
def execCpxAbs (addr : Word) (s : State) : Answer := .next (readOp (byteAt (absolute addr)) opCpx 4 s)

/-- The effect of CPY on its operand byte: Y compared (44_arithmetic_logic.md R173). -/
def opCpy (m : Byte) (s : State) : State := s.compare s.y m

/-- `CPY #$nn` (44_arithmetic_logic.md R173, 41_addressing_modes.md R121). -/
def execCpyImm (nn : Byte) (s : State) : Answer := .next (readOp (immediateByte nn) opCpy 2 s)

/-- `CPY $nn` (44_arithmetic_logic.md R173, 41_addressing_modes.md R122). -/
def execCpyZp (nn : Byte) (s : State) : Answer := .next (readOp (byteAt (zeroPage nn)) opCpy 3 s)

/-- `CPY $hhll` (44_arithmetic_logic.md R173, 41_addressing_modes.md R125). -/
def execCpyAbs (addr : Word) (s : State) : Answer := .next (readOp (byteAt (absolute addr)) opCpy 4 s)

/-- The effect of BIT on its operand byte: the bit test (44_arithmetic_logic.md R174). -/
def opBit (m : Byte) (s : State) : State := s.bitTest m

/-- `BIT $nn` (44_arithmetic_logic.md R174, 41_addressing_modes.md R122). -/
def execBitZp (nn : Byte) (s : State) : Answer := .next (readOp (byteAt (zeroPage nn)) opBit 3 s)

/-- `BIT $hhll` (44_arithmetic_logic.md R174, 41_addressing_modes.md R125). -/
def execBitAbs (addr : Word) (s : State) : Answer := .next (readOp (byteAt (absolute addr)) opBit 4 s)

end Sys2Proof.Machine
end

