-- ==== Sys2Proof/Machine/Control.lean ====
section
/-! DEFINITION. Control transfer instructions (46_control_transfer.md). -/

namespace Sys2Proof.Machine

/-- When BCC is taken (46_control_transfer.md R196). -/
def takenBcc (s : State) : Bool := !s.flag .c

/-- `BCC label` (46_control_transfer.md R196, 41_addressing_modes.md R130). -/
def execBcc (offset : Int) (s : State) : Answer := .next (branchOp takenBcc offset s)

/-- When BCS is taken (46_control_transfer.md R197). -/
def takenBcs (s : State) : Bool := s.flag .c

/-- `BCS label` (46_control_transfer.md R197, 41_addressing_modes.md R130). -/
def execBcs (offset : Int) (s : State) : Answer := .next (branchOp takenBcs offset s)

/-- When BEQ is taken (46_control_transfer.md R198). -/
def takenBeq (s : State) : Bool := s.flag .z

/-- `BEQ label` (46_control_transfer.md R198, 41_addressing_modes.md R130). -/
def execBeq (offset : Int) (s : State) : Answer := .next (branchOp takenBeq offset s)

/-- When BNE is taken (46_control_transfer.md R199). -/
def takenBne (s : State) : Bool := !s.flag .z

/-- `BNE label` (46_control_transfer.md R199, 41_addressing_modes.md R130). -/
def execBne (offset : Int) (s : State) : Answer := .next (branchOp takenBne offset s)

/-- When BMI is taken (46_control_transfer.md R200). -/
def takenBmi (s : State) : Bool := s.flag .n

/-- `BMI label` (46_control_transfer.md R200, 41_addressing_modes.md R130). -/
def execBmi (offset : Int) (s : State) : Answer := .next (branchOp takenBmi offset s)

/-- When BPL is taken (46_control_transfer.md R201). -/
def takenBpl (s : State) : Bool := !s.flag .n

/-- `BPL label` (46_control_transfer.md R201, 41_addressing_modes.md R130). -/
def execBpl (offset : Int) (s : State) : Answer := .next (branchOp takenBpl offset s)

/-- When BVC is taken (46_control_transfer.md R202). -/
def takenBvc (s : State) : Bool := !s.flag .v

/-- `BVC label` (46_control_transfer.md R202, 41_addressing_modes.md R130). -/
def execBvc (offset : Int) (s : State) : Answer := .next (branchOp takenBvc offset s)

/-- When BVS is taken (46_control_transfer.md R203). -/
def takenBvs (s : State) : Bool := s.flag .v

/-- `BVS label` (46_control_transfer.md R203, 41_addressing_modes.md R130). -/
def execBvs (offset : Int) (s : State) : Answer := .next (branchOp takenBvs offset s)

/-- `JMP` (46_control_transfer.md R204): PC takes the address the mode returned. -/
def jumpOp (mode : State → Word × State) (total : Nat) (s : State) : State :=
  let ea := mode s
  (ea.2.setPc ea.1).stall total

/-- `JMP $hhll` (46_control_transfer.md R204, 41_addressing_modes.md R125). -/
def execJmpAbs (addr : Word) (s : State) : Answer := .next (jumpOp (absolute addr) 3 s)

/-- `JMP ($hhll)` (46_control_transfer.md R204, 41_addressing_modes.md R132). -/
def execJmpInd (addr : Word) (s : State) : Answer := .next (jumpOp (absoluteIndirect addr) 5 s)

/-- `JSR` (46_control_transfer.md R206): both operand bytes are read, then the address of the JSR's last byte is pushed,
high byte first, then PC takes the target. -/
def callOp (addr : Word) (total : Nat) (s : State) : State :=
  let ea := absolute addr s
  let ret := ea.2.pc - 1
  (((ea.2.push (highByte ret)).push (lowByte ret)).setPc ea.1).stall total

/-- `JSR $hhll` (46_control_transfer.md R206, 41_addressing_modes.md R125). -/
def execJsr (addr : Word) (s : State) : Answer := .next (callOp addr 6 s)

/-- Two pulls, low byte first, and the word they make (46_control_transfer.md R207, R208). -/
def State.pullWord (s : State) : Word × State :=
  let lo := s.pull
  let hi := lo.2.pull
  (wordOf hi.1 lo.1, hi.2)

/-- `RTS` (46_control_transfer.md R207): PC takes the pulled address plus one. -/
def returnOp (total : Nat) (s : State) : State :=
  let ret := s.pullWord
  (ret.2.setPc (ret.1 + 1)).stall total

/-- `RTS` (46_control_transfer.md R207). -/
def execRts (s : State) : Answer := .next (returnOp 6 s)

/-- `RTI` (46_control_transfer.md R208): P but for bits 5 and 4, then PC, with no plus one. This core takes no interrupt,
so it restores only what the program itself pushed (60_exceptions.md R236). -/
def returnInterruptOp (total : Nat) (s : State) : State :=
  let v := s.pull
  let ret := (v.2.restoreStatus v.1).pullWord
  (ret.2.setPc ret.1).stall total

/-- `RTI` (46_control_transfer.md R208). -/
def execRti (s : State) : Answer := .next (returnInterruptOp 6 s)

end Sys2Proof.Machine
end

