-- ==== Sys2Proof/Machine/FlagsSystem.lean ====
section
/-! DEFINITION. Flag instructions, NOP and BRK (47_flags_system.md). -/

namespace Sys2Proof.Machine

/-- The effect of CLC: one flag, nothing else (47_flags_system.md R215). -/
def opClc (s : State) : State := s.setFlag .c false

/-- `CLC` (47_flags_system.md R215). -/
def execClc (s : State) : Answer := .next (impliedOp opClc 2 s)

/-- The effect of SEC: one flag, nothing else (47_flags_system.md R216). -/
def opSec (s : State) : State := s.setFlag .c true

/-- `SEC` (47_flags_system.md R216). -/
def execSec (s : State) : Answer := .next (impliedOp opSec 2 s)

/-- The effect of CLI: one flag, nothing else (47_flags_system.md R217). -/
def opCli (s : State) : State := s.setFlag .i false

/-- `CLI` (47_flags_system.md R217). -/
def execCli (s : State) : Answer := .next (impliedOp opCli 2 s)

/-- The effect of SEI: one flag, nothing else (47_flags_system.md R218). -/
def opSei (s : State) : State := s.setFlag .i true

/-- `SEI` (47_flags_system.md R218). -/
def execSei (s : State) : Answer := .next (impliedOp opSei 2 s)

/-- The effect of CLV: one flag, nothing else (47_flags_system.md R219). -/
def opClv (s : State) : State := s.setFlag .v false

/-- `CLV` (47_flags_system.md R219). -/
def execClv (s : State) : Answer := .next (impliedOp opClv 2 s)

/-- The effect of CLD: one flag, nothing else (47_flags_system.md R220). -/
def opCld (s : State) : State := s.setFlag .d false

/-- `CLD` (47_flags_system.md R220). -/
def execCld (s : State) : Answer := .next (impliedOp opCld 2 s)

/-- The effect of SED: one flag, nothing else (47_flags_system.md R221). -/
def opSed (s : State) : State := s.setFlag .d true

/-- `SED` (47_flags_system.md R221). -/
def execSed (s : State) : Answer := .next (impliedOp opSed 2 s)

/-- NOP has no effect (47_flags_system.md R222). -/
def opNop (s : State) : State := s

/-- `NOP` (47_flags_system.md R222). -/
def execNop (s : State) : Answer := .next (impliedOp opNop 2 s)

/-- `BRK` (47_flags_system.md R226): `halted <- 1`, no stall, nothing pushed, no flag, no vector. -/
def execBrk (s : State) : Answer := .next s.halt

end Sys2Proof.Machine
end

