-- ==== Sys2Proof/Machine/IncShift.lean ====
section
/-! DEFINITION. Increment, decrement, shift and rotate instructions (45_incdec_shift.md). -/

namespace Sys2Proof.Machine

/-- `INC $nn` (45_incdec_shift.md R181, 41_addressing_modes.md R122). -/
def execIncZp (nn : Byte) (s : State) : Answer := .next (modifyOp (zeroPage nn) State.increment 6 s)

/-- `INC $nn,X` (45_incdec_shift.md R181, 41_addressing_modes.md R123). -/
def execIncZpx (nn : Byte) (s : State) : Answer := .next (modifyOp (zeroPageX nn) State.increment 6 s)

/-- `INC $hhll` (45_incdec_shift.md R181, 41_addressing_modes.md R125). -/
def execIncAbs (addr : Word) (s : State) : Answer := .next (modifyOp (absolute addr) State.increment 6 s)

/-- `INC $hhll,X` (45_incdec_shift.md R181, 41_addressing_modes.md R126). -/
def execIncAbx (addr : Word) (s : State) : Answer := .next (modifyOp (absoluteX addr) State.increment 6 s)

/-- `DEC $nn` (45_incdec_shift.md R182, 41_addressing_modes.md R122). -/
def execDecZp (nn : Byte) (s : State) : Answer := .next (modifyOp (zeroPage nn) State.decrement 5 s)

/-- `DEC $nn,X` (45_incdec_shift.md R182, 41_addressing_modes.md R123). -/
def execDecZpx (nn : Byte) (s : State) : Answer := .next (modifyOp (zeroPageX nn) State.decrement 6 s)

/-- `DEC $hhll` (45_incdec_shift.md R182, 41_addressing_modes.md R125). -/
def execDecAbs (addr : Word) (s : State) : Answer := .next (modifyOp (absolute addr) State.decrement 6 s)

/-- `DEC $hhll,X` (45_incdec_shift.md R182, 41_addressing_modes.md R126). -/
def execDecAbx (addr : Word) (s : State) : Answer := .next (modifyOp (absoluteX addr) State.decrement 7 s)

/-- The effect of INX (45_incdec_shift.md R183). -/
def opInx (s : State) : State := (s.setX (s.x + 1)).setNZ (s.x + 1)

/-- `INX` (45_incdec_shift.md R183). -/
def execInx (s : State) : Answer := .next (impliedOp opInx 2 s)

/-- The effect of INY (45_incdec_shift.md R184). -/
def opIny (s : State) : State := (s.setY (s.y + 1)).setNZ (s.y + 1)

/-- `INY` (45_incdec_shift.md R184). -/
def execIny (s : State) : Answer := .next (impliedOp opIny 2 s)

/-- The effect of DEX (45_incdec_shift.md R185). -/
def opDex (s : State) : State := (s.setX (s.x - 1)).setNZ (s.x - 1)

/-- `DEX` (45_incdec_shift.md R185). -/
def execDex (s : State) : Answer := .next (impliedOp opDex 2 s)

/-- The effect of DEY (45_incdec_shift.md R186). -/
def opDey (s : State) : State := (s.setY (s.y - 1)).setNZ (s.y - 1)

/-- `DEY` (45_incdec_shift.md R186). -/
def execDey (s : State) : Answer := .next (impliedOp opDey 2 s)

/-- `ASL A` (45_incdec_shift.md R187, 41_addressing_modes.md R131). -/
def execAslAcc (s : State) : Answer := .next (modifyAccOp State.shiftLeft 2 s)

/-- `ASL $nn` (45_incdec_shift.md R187, 41_addressing_modes.md R122). -/
def execAslZp (nn : Byte) (s : State) : Answer := .next (modifyOp (zeroPage nn) State.shiftLeft 5 s)

/-- `ASL $nn,X` (45_incdec_shift.md R187, 41_addressing_modes.md R123). -/
def execAslZpx (nn : Byte) (s : State) : Answer := .next (modifyOp (zeroPageX nn) State.shiftLeft 6 s)

/-- `ASL $hhll` (45_incdec_shift.md R187, 41_addressing_modes.md R125). -/
def execAslAbs (addr : Word) (s : State) : Answer := .next (modifyOp (absolute addr) State.shiftLeft 6 s)

/-- `ASL $hhll,X` (45_incdec_shift.md R187, 41_addressing_modes.md R126). -/
def execAslAbx (addr : Word) (s : State) : Answer := .next (modifyOp (absoluteX addr) State.shiftLeft 7 s)

/-- `LSR A` (45_incdec_shift.md R188, 41_addressing_modes.md R131). -/
def execLsrAcc (s : State) : Answer := .next (modifyAccOp State.shiftRight 2 s)

/-- `LSR $nn` (45_incdec_shift.md R188, 41_addressing_modes.md R122). -/
def execLsrZp (nn : Byte) (s : State) : Answer := .next (modifyOp (zeroPage nn) State.shiftRight 5 s)

/-- `LSR $nn,X` (45_incdec_shift.md R188, 41_addressing_modes.md R123). -/
def execLsrZpx (nn : Byte) (s : State) : Answer := .next (modifyOp (zeroPageX nn) State.shiftRight 6 s)

/-- `LSR $hhll` (45_incdec_shift.md R188, 41_addressing_modes.md R125). -/
def execLsrAbs (addr : Word) (s : State) : Answer := .next (modifyOp (absolute addr) State.shiftRight 6 s)

/-- `LSR $hhll,X` (45_incdec_shift.md R188, 41_addressing_modes.md R126). -/
def execLsrAbx (addr : Word) (s : State) : Answer := .next (modifyOp (absoluteX addr) State.shiftRight 7 s)

/-- `ROL A` (45_incdec_shift.md R189, 41_addressing_modes.md R131). -/
def execRolAcc (s : State) : Answer := .next (modifyAccOp State.rotateLeft 2 s)

/-- `ROL $nn` (45_incdec_shift.md R189, 41_addressing_modes.md R122). -/
def execRolZp (nn : Byte) (s : State) : Answer := .next (modifyOp (zeroPage nn) State.rotateLeft 5 s)

/-- `ROL $nn,X` (45_incdec_shift.md R189, 41_addressing_modes.md R123). -/
def execRolZpx (nn : Byte) (s : State) : Answer := .next (modifyOp (zeroPageX nn) State.rotateLeft 6 s)

/-- `ROL $hhll` (45_incdec_shift.md R189, 41_addressing_modes.md R125). -/
def execRolAbs (addr : Word) (s : State) : Answer := .next (modifyOp (absolute addr) State.rotateLeft 6 s)

/-- `ROL $hhll,X` (45_incdec_shift.md R189, 41_addressing_modes.md R126). -/
def execRolAbx (addr : Word) (s : State) : Answer := .next (modifyOp (absoluteX addr) State.rotateLeft 7 s)

/-- `ROR A` (45_incdec_shift.md R190, 41_addressing_modes.md R131). -/
def execRorAcc (s : State) : Answer := .next (modifyAccOp State.rotateRight 2 s)

/-- `ROR $nn` (45_incdec_shift.md R190, 41_addressing_modes.md R122). -/
def execRorZp (nn : Byte) (s : State) : Answer := .next (modifyOp (zeroPage nn) State.rotateRight 5 s)

/-- `ROR $nn,X` (45_incdec_shift.md R190, 41_addressing_modes.md R123). -/
def execRorZpx (nn : Byte) (s : State) : Answer := .next (modifyOp (zeroPageX nn) State.rotateRight 6 s)

/-- `ROR $hhll` (45_incdec_shift.md R190, 41_addressing_modes.md R125). -/
def execRorAbs (addr : Word) (s : State) : Answer := .next (modifyOp (absolute addr) State.rotateRight 6 s)

/-- `ROR $hhll,X` (45_incdec_shift.md R190, 41_addressing_modes.md R126). -/
def execRorAbx (addr : Word) (s : State) : Answer := .next (modifyOp (absoluteX addr) State.rotateRight 7 s)

end Sys2Proof.Machine
end

