-- ==== Sys2Proof/Machine/LoadStore.lean ====
section
/-! DEFINITION. Load and store instructions (42_load_store.md). -/

namespace Sys2Proof.Machine

/-- The effect of LDA on the byte read: the register and `SetNZ` (42_load_store.md R141). -/
def opLda (v : Byte) (s : State) : State := (s.setA v).setNZ v

/-- `LDA #$nn` (42_load_store.md R141, 41_addressing_modes.md R121). -/
def execLdaImm (nn : Byte) (s : State) : Answer := .next (readOp (immediateByte nn) opLda 4 s)

/-- `LDA $nn` (42_load_store.md R141, 41_addressing_modes.md R122). -/
def execLdaZp (nn : Byte) (s : State) : Answer := .next (readOp (byteAt (zeroPage nn)) opLda 4 s)

/-- `LDA $nn,X` (42_load_store.md R141, 41_addressing_modes.md R123). -/
def execLdaZpx (nn : Byte) (s : State) : Answer := .next (readOp (byteAt (zeroPageX nn)) opLda 4 s)

/-- `LDA $hhll` (42_load_store.md R141, 41_addressing_modes.md R125). -/
def execLdaAbs (addr : Word) (s : State) : Answer := .next (readOp (byteAt (absolute addr)) opLda 4 s)

/-- `LDA $hhll,X` (42_load_store.md R141, 41_addressing_modes.md R126). -/
def execLdaAbx (addr : Word) (s : State) : Answer := .next (readOp (byteAt (absoluteX addr)) opLda 4 s)

/-- `LDA $hhll,Y` (42_load_store.md R141, 41_addressing_modes.md R127). -/
def execLdaAby (addr : Word) (s : State) : Answer := .next (readOp (byteAt (absoluteY addr)) opLda 4 s)

/-- `LDA ($nn,X)` (42_load_store.md R141, 41_addressing_modes.md R128). -/
def execLdaIzx (nn : Byte) (s : State) : Answer := .next (readOp (byteAt (indexedIndirectX nn)) opLda 4 s)

/-- `LDA ($nn),Y` (42_load_store.md R141, 41_addressing_modes.md R129). -/
def execLdaIzy (nn : Byte) (s : State) : Answer := .next (readOp (byteAt (indirectIndexedY nn)) opLda 4 s)

/-- The effect of LDX on the byte read: the register and `SetNZ` (42_load_store.md R142). -/
def opLdx (v : Byte) (s : State) : State := (s.setX v).setNZ v

/-- `LDX #$nn` (42_load_store.md R142, 41_addressing_modes.md R121). -/
def execLdxImm (nn : Byte) (s : State) : Answer := .next (readOp (immediateByte nn) opLdx 2 s)

/-- `LDX $nn` (42_load_store.md R142, 41_addressing_modes.md R122). -/
def execLdxZp (nn : Byte) (s : State) : Answer := .next (readOp (byteAt (zeroPage nn)) opLdx 3 s)

/-- `LDX $nn,Y` (42_load_store.md R142, 41_addressing_modes.md R124). -/
def execLdxZpy (nn : Byte) (s : State) : Answer := .next (readOp (byteAt (zeroPageY nn)) opLdx 4 s)

/-- `LDX $hhll` (42_load_store.md R142, 41_addressing_modes.md R125). -/
def execLdxAbs (addr : Word) (s : State) : Answer := .next (readOp (byteAt (absolute addr)) opLdx 4 s)

/-- `LDX $hhll,Y` (42_load_store.md R142, 41_addressing_modes.md R127). -/
def execLdxAby (addr : Word) (s : State) : Answer := .next (readOp (byteAt (absoluteY addr)) opLdx 4 s)

/-- The effect of LDY on the byte read: the register and `SetNZ` (42_load_store.md R143). -/
def opLdy (v : Byte) (s : State) : State := (s.setY v).setNZ v

/-- `LDY #$nn` (42_load_store.md R143, 41_addressing_modes.md R121). -/
def execLdyImm (nn : Byte) (s : State) : Answer := .next (readOp (immediateByte nn) opLdy 2 s)

/-- `LDY $nn` (42_load_store.md R143, 41_addressing_modes.md R122). -/
def execLdyZp (nn : Byte) (s : State) : Answer := .next (readOp (byteAt (zeroPage nn)) opLdy 3 s)

/-- `LDY $nn,X` (42_load_store.md R143, 41_addressing_modes.md R123). -/
def execLdyZpx (nn : Byte) (s : State) : Answer := .next (readOp (byteAt (zeroPageX nn)) opLdy 4 s)

/-- `LDY $hhll` (42_load_store.md R143, 41_addressing_modes.md R125). -/
def execLdyAbs (addr : Word) (s : State) : Answer := .next (readOp (byteAt (absolute addr)) opLdy 4 s)

/-- `LDY $hhll,X` (42_load_store.md R143, 41_addressing_modes.md R126). -/
def execLdyAbx (addr : Word) (s : State) : Answer := .next (readOp (byteAt (absoluteX addr)) opLdy 4 s)

/-- `STA $nn` (42_load_store.md R144, 41_addressing_modes.md R122). -/
def execStaZp (nn : Byte) (s : State) : Answer := .next (storeOp (zeroPage nn) State.a 4 s)

/-- `STA $nn,X` (42_load_store.md R144, 41_addressing_modes.md R123). -/
def execStaZpx (nn : Byte) (s : State) : Answer := .next (storeOp (zeroPageX nn) State.a 4 s)

/-- `STA $hhll` (42_load_store.md R144, 41_addressing_modes.md R125). -/
def execStaAbs (addr : Word) (s : State) : Answer := .next (storeOp (absolute addr) State.a 4 s)

/-- `STA $hhll,X` (42_load_store.md R144, 41_addressing_modes.md R126). -/
def execStaAbx (addr : Word) (s : State) : Answer := .next (storeOp (absoluteX addr) State.a 4 s)

/-- `STA $hhll,Y` (42_load_store.md R144, 41_addressing_modes.md R127). -/
def execStaAby (addr : Word) (s : State) : Answer := .next (storeOp (absoluteY addr) State.a 4 s)

/-- `STA ($nn,X)` (42_load_store.md R144, 41_addressing_modes.md R128). -/
def execStaIzx (nn : Byte) (s : State) : Answer := .next (storeOp (indexedIndirectX nn) State.a 4 s)

/-- `STA ($nn),Y` (42_load_store.md R144, 41_addressing_modes.md R129). -/
def execStaIzy (nn : Byte) (s : State) : Answer := .next (storeOp (indirectIndexedY nn) State.a 4 s)

/-- `STX $nn` (42_load_store.md R145, 41_addressing_modes.md R122). -/
def execStxZp (nn : Byte) (s : State) : Answer := .next (storeOp (zeroPage nn) State.x 3 s)

/-- `STX $nn,Y` (42_load_store.md R145, 41_addressing_modes.md R124). -/
def execStxZpy (nn : Byte) (s : State) : Answer := .next (storeOp (zeroPageY nn) State.x 4 s)

/-- `STX $hhll` (42_load_store.md R145, 41_addressing_modes.md R125). -/
def execStxAbs (addr : Word) (s : State) : Answer := .next (storeOp (absolute addr) State.x 4 s)

/-- `STY $nn` (42_load_store.md R146, 41_addressing_modes.md R122). -/
def execStyZp (nn : Byte) (s : State) : Answer := .next (storeOp (zeroPage nn) State.y 3 s)

/-- `STY $nn,X` (42_load_store.md R146, 41_addressing_modes.md R123). -/
def execStyZpx (nn : Byte) (s : State) : Answer := .next (storeOp (zeroPageX nn) State.y 4 s)

/-- `STY $hhll` (42_load_store.md R146, 41_addressing_modes.md R125). -/
def execStyAbs (addr : Word) (s : State) : Answer := .next (storeOp (absolute addr) State.y 4 s)

end Sys2Proof.Machine
end

