-- ==== Sys2Proof/Machine/TransferStack.lean ====
section
/-! DEFINITION. Register transfer and stack instructions (43_transfer_stack.md). -/

namespace Sys2Proof.Machine

/-- `PHA` (43_transfer_stack.md R152). -/
def execPha (s : State) : Answer := .next (pushOp State.a 3 s)

/-- `PHP` (43_transfer_stack.md R153). -/
def execPhp (s : State) : Answer := .next (pushOp State.pushedStatus 3 s)

/-- The effect of PLA on the byte pulled (43_transfer_stack.md R154). -/
def opPla (v : Byte) (s : State) : State := (s.setA v).setNZ v

/-- `PLA` (43_transfer_stack.md R154). DEDUCED (log entry 22): R154's words "three stall ticks" contradict its own
`Stall(4)`, k = 1 and period 4; the model follows these, so two stall ticks (40_clock_step_sequencer.md R102, R105). -/
def execPla (s : State) : Answer := .next (pullOp opPla 4 s)

/-- The effect of PLP on the byte pulled (43_transfer_stack.md R155). -/
def opPlp (v : Byte) (s : State) : State := s.restoreStatus v

/-- `PLP` (43_transfer_stack.md R155). -/
def execPlp (s : State) : Answer := .next (pullOp opPlp 4 s)

/-- The effect of TSX (43_transfer_stack.md R156). -/
def opTsx (s : State) : State := (s.setX s.sp).setNZ s.sp

/-- `TSX` (43_transfer_stack.md R156). -/
def execTsx (s : State) : Answer := .next (impliedOp opTsx 2 s)

/-- The effect of TAX (43_transfer_stack.md R158). -/
def opTax (s : State) : State := (s.setX s.a).setNZ s.a

/-- `TAX` (43_transfer_stack.md R158). -/
def execTax (s : State) : Answer := .next (impliedOp opTax 2 s)

/-- The effect of TAY (43_transfer_stack.md R159). -/
def opTay (s : State) : State := (s.setY s.a).setNZ s.a

/-- `TAY` (43_transfer_stack.md R159). -/
def execTay (s : State) : Answer := .next (impliedOp opTay 2 s)

/-- The effect of TXA (43_transfer_stack.md R160). -/
def opTxa (s : State) : State := (s.setA s.x).setNZ s.x

/-- `TXA` (43_transfer_stack.md R160). -/
def execTxa (s : State) : Answer := .next (impliedOp opTxa 2 s)

/-- The effect of TYA (43_transfer_stack.md R161). -/
def opTya (s : State) : State := (s.setA s.y).setNZ s.y

/-- `TYA` (43_transfer_stack.md R161). -/
def execTya (s : State) : Answer := .next (impliedOp opTya 2 s)

/-- The effect of TXS, the only transfer that writes no flag (43_transfer_stack.md R157). -/
def opTxs (s : State) : State := s.setSp s.x

/-- `TXS` (43_transfer_stack.md R157). -/
def execTxs (s : State) : Answer := .next (impliedOp opTxs 2 s)

end Sys2Proof.Machine
end

