-- ==== Sys2Proof/Machine/Fetch.lean ====
section
/-! DEFINITION. Fetching at an instruction boundary: the bytes the bus will deliver, the instruction they are, and how an
instruction is placed where the outstanding fetch finds it. -/

namespace Sys2Proof.Machine.State

/-- The bytes the core will be given if it reads two operand bytes after the opcode byte in the latch: what the bus
delivers at PC and at PC + 1, stale values included (20_memory.md R46, 30_encoding.md R73). Looking ahead changes
nothing: reads have no side effect (20_memory.md R45). -/
def incoming (s : State) : List Byte :=
  let b1 := s.serve s.bus.value s.pc
  let b2 := s.serve b1 (s.pc + 1)
  [s.latch, b1, b2]

/-- The instruction the core is about to run once its opcode byte is in the latch, if the byte is no illegal opcode. -/
def decoded (s : State) : Option Instr :=
  match decode s.incoming with
  | .ok (i, _) => some i
  | .error _ => none

/-- A one-byte window added for an address no device backs. -/
def ensureBacked (s : State) (a : Word) : State :=
  if s.backed a then s else s.setDevices (s.devices ++ [⟨a.toNat, 1⟩])

/-- A byte placed in memory where a device will serve it. -/
def placeByte (s : State) (a : Word) (v : Byte) : State :=
  let s := s.ensureBacked a
  s.setMem (s.mem.write a v)

/-- Bytes placed from an address on. -/
def placeBytes : Word → List Byte → State → State
  | _, [], s => s
  | a, b :: bs, s => placeBytes (a + 1) bs (s.placeByte a b)

/-- The state with three bytes placed at PC - 1 and the core brought to the instruction boundary at which the opcode read
of that address is outstanding (10_state.md R31 (b)): not halted, no sequence in flight, a pending read of PC - 1. -/
def placeInstr (s : State) (bytes : List Byte) : State :=
  let s := placeBytes (s.pc - 1) bytes s
  (((s.setHalted false).setSeq .idle).setPending true).setBus ⟨.read, s.pc - 1, s.bus.value⟩

end Sys2Proof.Machine.State
end

