-- ==== Sys2Proof/Machine/Sequencer.lean ====
section
/-! DEFINITION. The core at the tick level (40_clock_step_sequencer.md): the sequence of every table entry as a list of
micro-steps (R94, R109), the straight-line code between two suspensions, the clock step (R92), and one tick. -/

namespace Sys2Proof.Machine

/-! ## The sequences -/

/-- The micro-steps of an addressing-mode routine (41_addressing_modes.md R121 to R132). -/
def modeSteps : Mode → List Micro
  | .imp | .acc => []
  | .imm => [.immediate]
  | .zp => [.fetch8, .zeroPage]
  | .zpx => [.fetch8, .zeroPageX]
  | .zpy => [.fetch8, .zeroPageY]
  | .abs => [.fetch8, .keepLow, .fetch8, .absolute]
  | .abx => [.fetch8, .keepLow, .fetch8, .absoluteX]
  | .aby => [.fetch8, .keepLow, .fetch8, .absoluteY]
  | .izx => [.fetch8, .pointerZpX, .readPtr, .keepLow, .readPtrNext, .absolute]
  | .izy => [.fetch8, .pointerZp, .readPtr, .keepLow, .readPtrNext, .absoluteY]
  | .rel => [.fetch8, .relative]
  | .ind => [.fetch8, .keepLow, .fetch8, .pointerAbs, .readPtr, .keepLow, .readPtrNext, .absolute]

/-- The micro-steps of an operation routine (files 42 to 47), ending in its `Stall(T)`. -/
def operationSteps (e : Entry) : List Micro :=
  match e.mnemonic with
  | .lda | .ldx | .ldy | .adc | .sbc | .and | .ora | .eor | .cmp | .cpx | .cpy | .bit =>
    [.read, .operate e.mnemonic, .stall e.total]
  | .sta | .stx | .sty => [.source e.mnemonic, .write, .stall e.total]
  | .inc | .dec => [.read, .modify e.mnemonic, .write, .stall e.total]
  | .asl | .lsr | .rol | .ror =>
    if e.mode = .acc then [.modifyA e.mnemonic, .stall e.total]
    else [.read, .modify e.mnemonic, .write, .stall e.total]
  | .tsx | .txs | .tax | .tay | .txa | .tya | .inx | .iny | .dex | .dey
  | .clc | .sec | .cli | .sei | .clv | .cld | .sed | .nop => [.operate e.mnemonic, .stall e.total]
  | .pha | .php => [.source e.mnemonic, .push, .stall e.total]
  | .pla | .plp => [.pull, .operate e.mnemonic, .stall e.total]
  | .bcc | .bcs | .beq | .bne | .bmi | .bpl | .bvc | .bvs => [.branch e.mnemonic]
  | .jmp => [.jump, .stall e.total]
  | .jsr => [.returnHigh, .push, .returnLow, .push, .jump, .stall e.total]
  | .rts => [.pull, .keepLow, .pull, .resume 1, .stall e.total]
  | .rti => [.pull, .operate .rti, .pull, .keepLow, .pull, .resume 0, .stall e.total]
  | .brk => [.halt]

/-- The sequence of a table entry: its addressing-mode routine, then its operation routine
(40_clock_step_sequencer.md R94). -/
def sequenceOf (e : Entry) : List Micro := modeSteps e.mode ++ operationSteps e

/-- The reset sequence after the assertion of its first read: the vector, low byte first, A, X, Y cleared, and the eight
stall ticks of `RawStall(8)` (70_reset_and_hazards.md R251, 40_clock_step_sequencer.md R103). -/
def resetRest : List Micro :=
  [.keepLow, .readAt 0xFFFD, .loadVector] ++ List.replicate 8 .suspend

/-! ## The effects by mnemonic -/

/-- The register and flag effect of a mnemonic on the byte just read, for the mnemonics that have one. -/
def operate (op : Mnemonic) (v : Byte) (s : State) : State :=
  match op with
  | .lda => opLda v s
  | .ldx => opLdx v s
  | .ldy => opLdy v s
  | .pla => opPla v s
  | .plp => opPlp v s
  | .adc => opAdc v s
  | .sbc => opSbc v s
  | .and => opAnd v s
  | .ora => opOra v s
  | .eor => opEor v s
  | .cmp => opCmp v s
  | .cpx => opCpx v s
  | .cpy => opCpy v s
  | .bit => opBit v s
  | .tsx => opTsx s
  | .txs => opTxs s
  | .tax => opTax s
  | .tay => opTay s
  | .txa => opTxa s
  | .tya => opTya s
  | .inx => opInx s
  | .iny => opIny s
  | .dex => opDex s
  | .dey => opDey s
  | .clc => opClc s
  | .sec => opSec s
  | .cli => opCli s
  | .sei => opSei s
  | .clv => opClv s
  | .cld => opCld s
  | .sed => opSed s
  | .nop => opNop s
  | .rti => s.restoreStatus v
  | .sta | .stx | .sty | .pha | .php | .inc | .dec | .asl | .lsr | .rol | .ror | .bcc | .bcs
  | .beq | .bne | .bmi | .bpl | .bvc | .bvs | .jmp | .jsr | .rts | .brk => s

/-- The byte a mnemonic stores or pushes, for the mnemonics that do. -/
def sourceByte (op : Mnemonic) (s : State) : Byte :=
  match op with
  | .sta | .pha => s.a
  | .stx => s.x
  | .sty => s.y
  | .php => s.pushedStatus
  | .lda | .ldx | .ldy | .pla | .plp | .tsx | .txs | .tax | .tay | .txa | .tya | .adc | .sbc | .and | .ora
  | .eor | .cmp | .cpx | .cpy | .bit | .inc | .dec | .inx | .iny | .dex | .dey | .asl | .lsr | .rol | .ror
  | .bcc | .bcs | .beq | .bne | .bmi | .bpl | .bvc | .bvs | .jmp | .jsr | .rts | .rti | .clc | .sec | .cli
  | .sei | .clv | .cld | .sed | .nop | .brk => 0

/-- `f` of a read-modify-write (45_incdec_shift.md), for the mnemonics that are one. -/
def modify (op : Mnemonic) (v : Byte) (s : State) : Byte × State :=
  match op with
  | .inc => State.increment v s
  | .dec => State.decrement v s
  | .asl => State.shiftLeft v s
  | .lsr => State.shiftRight v s
  | .rol => State.rotateLeft v s
  | .ror => State.rotateRight v s
  | .lda | .ldx | .ldy | .sta | .stx | .sty | .pha | .php | .pla | .plp | .tsx | .txs | .tax | .tay | .txa
  | .tya | .adc | .sbc | .and | .ora | .eor | .cmp | .cpx | .cpy | .bit | .inx | .iny | .dex | .dey | .bcc
  | .bcs | .beq | .bne | .bmi | .bpl | .bvc | .bvs | .jmp | .jsr | .rts | .rti | .clc | .sec | .cli | .sei
  | .clv | .cld | .sed | .nop | .brk => (v, s)

/-- The condition of a branch (46_control_transfer.md R196 to R203). -/
def taken (op : Mnemonic) (s : State) : Bool :=
  match op with
  | .bcc => takenBcc s
  | .bcs => takenBcs s
  | .beq => takenBeq s
  | .bne => takenBne s
  | .bmi => takenBmi s
  | .bpl => takenBpl s
  | .bvc => takenBvc s
  | .bvs => takenBvs s
  | .lda | .ldx | .ldy | .sta | .stx | .sty | .pha | .php | .pla | .plp | .tsx | .txs | .tax | .tay | .txa
  | .tya | .adc | .sbc | .and | .ora | .eor | .cmp | .cpx | .cpy | .bit | .inc | .dec | .inx | .iny | .dex
  | .dey | .asl | .lsr | .rol | .ror | .jmp | .jsr | .rts | .rti | .clc | .sec | .cli | .sei | .clv | .cld
  | .sed | .nop | .brk => false

/-! ## Running a sequence -/

/-- What follows once `Stall(T)` has settled its count: nothing more if none remains, else that many suspensions, the
first of them now (40_clock_step_sequencer.md R102). -/
def afterStall (total : Nat) (rest : List Micro) (t : Tmp) (s : State) (go : State → State) : State :=
  match (s.remaining total).toNat with
  | 0 => go (s.settle total)
  | n + 1 => (s.settle total).setSeq (.exec (List.replicate n .suspend ++ rest) t)

/-- The page test and the jump of a taken branch (46_control_transfer.md R195). -/
def takeBranch (t : Tmp) (s : State) : State :=
  (if highByte t.ea ≠ highByte s.pc then s.setExtra (s.extra + 1) else s).setPc t.ea

/-- `Advance()` (40_clock_step_sequencer.md R92): runs a sequence until it suspends, when `seq` holds what is left of it,
or until it ends, when `seq` is Idle. -/
def advance : List Micro → Tmp → State → State
  | [], _, s => s.setSeq .idle
  | .immediate :: rest, t, s => advance rest { t with ea := s.pc } (s.setPc (s.pc + 1))
  | .fetch8 :: rest, t, s => ((s.assertRead s.pc).setPc (s.pc + 1)).setSeq (.exec rest t)
  | .keepLow :: rest, t, s => advance rest { t with lo := s.latch } s
  | .zeroPage :: rest, t, s => advance rest { t with ea := s.latch.setWidth 16 } s
  | .zeroPageX :: rest, t, s => advance rest { t with ea := (s.latch + s.x).setWidth 16 } s
  | .zeroPageY :: rest, t, s => advance rest { t with ea := (s.latch + s.y).setWidth 16 } s
  | .absolute :: rest, t, s => advance rest { t with ea := wordOf s.latch t.lo } s
  | .absoluteX :: rest, t, s =>
    let r := s.indexed (wordOf s.latch t.lo) s.x
    advance rest { t with ea := r.1 } r.2
  | .absoluteY :: rest, t, s =>
    let r := s.indexed (wordOf s.latch t.lo) s.y
    advance rest { t with ea := r.1 } r.2
  | .pointerZp :: rest, t, s => advance rest { t with ptr := s.latch.setWidth 16 } s
  | .pointerZpX :: rest, t, s => advance rest { t with ptr := (s.latch + s.x).setWidth 16 } s
  | .pointerAbs :: rest, t, s => advance rest { t with ptr := wordOf s.latch t.lo } s
  | .readPtr :: rest, t, s => (s.assertRead t.ptr).setSeq (.exec rest t)
  | .readPtrNext :: rest, t, s => (s.assertRead (nextInPage t.ptr)).setSeq (.exec rest t)
  | .relative :: rest, t, s => advance rest { t with ea := s.pc + s.latch.signExtend 16 } s
  | .read :: rest, t, s => (s.assertRead t.ea).setSeq (.exec rest t)
  | .write :: rest, t, s => (s.assertWrite t.ea t.val).setSeq (.exec rest t)
  | .operate op :: rest, t, s => advance rest t (operate op s.latch s)
  | .source op :: rest, t, s => advance rest { t with val := sourceByte op s } s
  | .modify op :: rest, t, s =>
    let w := modify op s.latch s
    advance rest { t with val := w.1 } w.2
  | .modifyA op :: rest, t, s =>
    let w := modify op s.a s
    advance rest t (w.2.setA w.1)
  | .push :: rest, t, s =>
    ((s.setSp (s.sp - 1)).assertWrite (State.stackAddr s.sp) t.val).setSeq (.exec rest t)
  | .pull :: rest, t, s =>
    ((s.setSp (s.sp + 1)).assertRead (State.stackAddr (s.sp + 1))).setSeq (.exec rest t)
  | .returnHigh :: rest, t, s => advance rest { t with val := highByte (s.pc - 1) } s
  | .returnLow :: rest, t, s => advance rest { t with val := lowByte (s.pc - 1) } s
  | .jump :: rest, t, s => advance rest t (s.setPc t.ea)
  | .resume plus :: rest, t, s => advance rest t (s.setPc (wordOf s.latch t.lo + plus))
  | .branch op :: rest, t, s =>
    if taken op s then afterStall 3 rest t (takeBranch t s) (advance rest t)
    else afterStall 2 rest t s (advance rest t)
  | .stall total :: rest, t, s => afterStall total rest t s (advance rest t)
  | .suspend :: rest, t, s => s.setSeq (.exec rest t)
  | .halt :: rest, t, s => advance rest t s.halt
  | .resetSequence :: rest, t, s => (s.assertRead 0xFFFC).setSeq (.exec (resetRest ++ rest) t)
  | .readAt addr :: rest, t, s => (s.assertRead addr).setSeq (.exec rest t)
  | .loadVector :: rest, t, s =>
    advance rest t ((((s.setPc (wordOf s.latch t.lo)).setA 0).setX 0).setY 0)

/-! ## The clock step -/

/-- `CoreStep()` (40_clock_step_sequencer.md R92). -/
def coreStep (s : State) : State :=
  if s.halted then s
  else
    let s := s.capture
    match s.seq with
    | .idle =>
      match table s.latch with
      | none => s.skipIllegal
      | some e => advance (sequenceOf e) Tmp.start (s.setCyc 0)
    | .exec rest t =>
      let s := advance rest t (s.setCyc (s.cyc + 1))
      match s.seq with
      | .idle => s.issueFetch
      | .exec _ _ => s

/-- One tick: the device phase, then the core's step (20_memory.md R43). -/
def tick (s : State) : State := coreStep s.beginTick

/-- `n` ticks. -/
def ticksAfter : Nat → State → State
  | 0, s => s
  | n + 1, s => ticksAfter n (tick s)

end Sys2Proof.Machine
end

