-- ==== Sys2Proof/Machine/Step.lean ====
section
/-! DEFINITION. One step of the machine: one tick while the core is halted, while a sequence (the reset sequence, or an
instruction entered tick by tick) is in flight, or for an illegal opcode; one whole instruction, from its decode tick
to the assertion of the next opcode fetch, otherwise (20_memory.md R55, 00_scope.md R8, log entry 6). -/

namespace Sys2Proof.Machine

/-- One step. The device phase serves the outstanding read, the core captures it, and the instruction the bus delivers
runs through `exec`; `State.retire` asserts the next opcode fetch (40_clock_step_sequencer.md R92). -/
def step (s : State) : Host.Outcome State Fault Refusal :=
  let s := s.beginTick
  if s.halted then .next s
  else
    match s.seq with
    | .exec _ _ => .next (coreStep s)
    | .idle =>
      let s := s.capture
      match s.decoded with
      | none => .next s.skipIllegal
      | some i =>
        match exec i (s.setCyc 0) with
        | .next t => .next t.retire
        | .fault f => .fault f
        | .refused r => .refused r

/-- The state with the instruction whose bits are `w` (the low `nbits`, the rest zeros) placed where the next step
fetches it (log entry 17): its bytes in memory at PC - 1, PC and PC + 1, and the core at the boundary at which the
opcode read of PC - 1 is outstanding. -/
def State.withFetchWord (s : State) (nbits w : Nat) : State := s.placeInstr (bytesOfWord (w % 2 ^ nbits))

end Sys2Proof.Machine
end

