-- ==== Sys2Proof/Machine/HostAccess.lean ====
section
/-! DEFINITION. What the host can do to the core between two ticks (70_reset_and_hazards.md R266): construct it, reset
it, read the snapshot and the ports, write A, X, Y and PC, poke memory. `cycle()` is `tick`. -/

namespace Sys2Proof.Machine

/-- Whether two windows share an address. -/
def windowsMeet (v w : Window) : Bool :=
  decide (v.start < w.start + w.size) && decide (w.start < v.start + v.size) && decide (0 < v.size) && decide (0 < w.size)

/-- The memory configurations the spec admits: windows pairwise disjoint (20_memory.md R48). -/
def disjointWindows : List Window → Bool
  | [] => true
  | w :: ws => ws.all (fun v => !windowsMeet w v) && disjointWindows ws

/-- A memory image in canonical form. DESIGN CHOICE (log entry 19): the spec says nothing of an image that names an
address twice or one past 0xFFFF (20_memory.md R45); here an earlier cell of the list wins over a later one, and an
address is taken modulo 65536. -/
def Memory.ofCells : List Host.Cell → Memory
  | [] => []
  | (a, v) :: cells => Memory.write (Memory.ofCells cells) (BitVec.ofNat 16 a) v

namespace State

/-- Whether devices back both bytes of the reset vector (70_reset_and_hazards.md R256 item 2). -/
def resetVectorBacked (s : State) : Bool := s.backed 0xFFFC && s.backed 0xFFFD

/-- `PowerOn()` on the memory the host has loaded (70_reset_and_hazards.md R250, R256 item 1). -/
def loaded (c : PowerOn) : State := powerOn { c with mem := Memory.ofCells c.mem }

/-- Construction: the loaded machine at power-on. Overlapping windows are refused (20_memory.md R48,
93_implementation_defined.md U3), and so is a reset vector that no device backs, whose entry point the program would
not have chosen (70_reset_and_hazards.md R256 item 2, 93_implementation_defined.md U10; log entry 21). -/
def construct (c : PowerOn) : Answer :=
  if !disjointWindows c.devices then .refused .overlappingWindows
  else if (loaded c).resetVectorBacked then .next (loaded c)
  else .refused .resetVectorUnbacked

/-- Whether the core is where `reset()` may be called: no sequence in flight, or the reset sequence at its start
(70_reset_and_hazards.md R253). -/
def betweenInstructions (s : State) : Bool := s.seq == .idle || s.seq == .resetStart

/-- The reset entry point `reset()` (70_reset_and_hazards.md R253); outside its precondition it is refused (U1). -/
def hostReset (s : State) : Answer :=
  if s.betweenInstructions then .next (((s.setHalted false).setExtra 0).setSeq .resetStart)
  else .refused .resetMidInstruction

/-- A register write accessor: allowed only while `seq` is Idle (10_state.md R32, U5). -/
def hostWrite (update : State → State) (s : State) : Answer :=
  if s.seq = .idle then .next (update s) else .refused .registerWriteMidInstruction

/-- `A <- v & 0xFF` (10_state.md R32). -/
def hostWriteA (v : Nat) : State → Answer := hostWrite (fun s => s.setA (BitVec.ofNat 8 v))

/-- `X <- v & 0xFF` (10_state.md R32). -/
def hostWriteX (v : Nat) : State → Answer := hostWrite (fun s => s.setX (BitVec.ofNat 8 v))

/-- `Y <- v & 0xFF` (10_state.md R32). -/
def hostWriteY (v : Nat) : State → Answer := hostWrite (fun s => s.setY (BitVec.ofNat 8 v))

/-- `PC <- v & 0xFFFF` (10_state.md R32); an outstanding opcode fetch is not redirected. -/
def hostWritePc (v : Nat) : State → Answer := hostWrite (fun s => s.setPc (BitVec.ofNat 16 v))

/-- A poke of the memory arrays between two ticks (70_reset_and_hazards.md R266, U13). -/
def hostPoke (a : Word) (v : Byte) (s : State) : State := s.setMem (s.mem.write a v)

end State

/-- The read-only snapshot (10_state.md R32). -/
structure Snapshot where
  a : Byte
  x : Byte
  y : Byte
  sp : Byte
  pc : Word
  p : Byte
  halted : Bool
  deriving DecidableEq, Repr

/-- The core's output ports (20_memory.md R41). What `busWdata` carries while no write is asserted is the model's choice
(log entry 20). -/
structure Ports where
  busDir : Direction
  busAddr : Word
  busWdata : Byte
  halted : Bool
  diagIllegal : Option Byte
  diagUnderflow : Bool
  deriving DecidableEq, Repr

/-- The illegal opcode of an event raised in a given tick. -/
def DiagEvent.illegalAt (tick : Nat) (e : DiagEvent) : Option Byte :=
  match e.kind with
  | .illegalOpcode op => if e.tick = tick then some op else none
  | .cycleUnderflow _ => none

/-- Whether an event is a cycle underflow raised in a given tick. -/
def DiagEvent.underflowAt (tick : Nat) (e : DiagEvent) : Bool :=
  match e.kind with
  | .illegalOpcode _ => false
  | .cycleUnderflow _ => decide (e.tick = tick)

namespace State

/-- The snapshot of a state, bit 5 of P reading as 1 (10_state.md R18, R32). -/
def snapshot (s : State) : Snapshot := ⟨s.a, s.x, s.y, s.sp, s.pc, s.status, s.halted⟩

/-- The ports after a tick: the bus record, `halted`, and the two strobes, raised only in the tick that emits the event
(20_memory.md R41, 60_exceptions.md R230). DESIGN CHOICE (log entry 20): R41 says what bus_wdata drives only when a
write is asserted; here it shows bus.value always, so on a held read the byte a device published. -/
def ports (s : State) : Ports where
  busDir := s.bus.dir
  busAddr := s.bus.addr
  busWdata := s.bus.value
  halted := s.halted
  diagIllegal := s.diags.findSome? (DiagEvent.illegalAt s.ticks)
  diagUnderflow := s.diags.any (DiagEvent.underflowAt s.ticks)

end State

end Sys2Proof.Machine
end

