-- ==== Sys2Proof/Safety.lean ====
section
/-! DEFINITION. The terms claims are stated in: the invariants of the state (10_state.md R31), what a frame keeps, what the
encoding and the timing tables say of an instruction, and an outstanding instruction fetch. -/

namespace Sys2Proof.Machine

/-! ## Invariants -/

/-- Whether a micro-step may count a page crossing that a later `Stall` has to consume (10_state.md R25). -/
def Micro.countsCrossing : Micro → Bool
  | .absoluteX | .absoluteY => true
  | .immediate | .fetch8 | .keepLow | .zeroPage | .zeroPageX | .zeroPageY | .absolute | .pointerZp | .pointerZpX
  | .pointerAbs | .readPtr | .readPtrNext | .relative | .read | .write | .operate _ | .source _ | .modify _ | .modifyA _
  | .push | .pull | .returnHigh | .returnLow | .jump | .resume _ | .branch _ | .stall _ | .suspend | .halt
  | .resetSequence | .readAt _ | .loadVector => false

/-- Whether a list of micro-steps ends in one that clears `extra`: a `Stall`, or a branch, which stalls itself. -/
def endsInStall (rest : List Micro) : Bool :=
  match rest.getLast? with
  | some (.stall _) => true
  | some (.branch _) => true
  | _ => false

/-- What is true of a suspended sequence: it does not halt (BRK never suspends, 40_clock_step_sequencer.md R110), and it
leaves `extra` at 0, because it ends in a `Stall` or because `extra` is 0 and nothing in it counts a crossing. -/
def SuspendedOk (rest : List Micro) (extra : Nat) : Prop :=
  Micro.halt ∉ rest ∧ (endsInStall rest = true ∨ (extra = 0 ∧ ∀ m ∈ rest, m.countsCrossing = false))

/-- The invariants of a tick boundary (10_state.md R31 (a) to (e)), the canonical form of memory, and `SuspendedOk` for
the sequence in flight. -/
structure State.Inv (s : State) : Prop where
  /-- (a) halted implies Idle and nothing pending -/
  haltedQuiet : s.halted = true → s.seq = .idle ∧ s.pending = false
  /-- (b) running and Idle imply that the opcode fetch at PC - 1 is outstanding -/
  fetchOutstanding : s.halted = false → s.seq = .idle → s.pending = true ∧ s.bus.dir = .read ∧ s.bus.addr = s.pc - 1
  /-- (c) a pending read is a read -/
  pendingRead : s.pending = true → s.bus.dir = .read
  /-- (d) Idle implies that no crossing is left uncounted -/
  idleSettled : s.seq = .idle → s.extra = 0
  /-- (e) bit 5 of P is 1 -/
  unusedSet : s.flag .u = true
  /-- memory is in canonical form -/
  memory : s.mem.wf = true
  /-- the sequence in flight, if any, keeps (a) and (d) -/
  suspended : ∀ rest t, s.seq = .exec rest t → SuspendedOk rest s.extra

/-! ## Frames -/

/-- The four byte registers that instructions address by name; PC is left out of frames, P is its flags. -/
inductive Reg where
  | a
  | x
  | y
  | sp
  deriving DecidableEq, Repr

/-- A register's value. -/
def State.reg (s : State) : Reg → Byte
  | .a => s.a
  | .x => s.x
  | .y => s.y
  | .sp => s.sp

/-- What an instruction leaves unchanged: every register but those listed, every bit of P but the flags listed, every byte
of memory outside the addresses listed, `halted`, the sequencer being Idle or not, and the windows. PC, and the
sequencer's own counters, latch, bus record, tick count and diagnostics, are not spoken of. -/
structure Frame (regs : List Reg) (flags : List Flag) (stored : List Word) (s t : State) : Prop where
  regs : ∀ r, r ∉ regs → t.reg r = s.reg r
  flags : ∀ f, f ∉ flags → t.flag f = s.flag f
  memory : ∀ a, a ∉ stored → t.mem.read a = s.mem.read a
  halted : t.halted = s.halted
  seq : t.seq = s.seq
  devices : t.devices = s.devices

/-- The flags a pull of the status loads: all but B and U (10_state.md R18, R19). -/
def statusFlags : List Flag := [.c, .z, .i, .d, .v, .n]

/-! ## Fetching -/

/-- The state in the decode tick of the instruction whose opcode read is outstanding in `s`: the device phase has served
the read, the core has captured the byte (40_clock_step_sequencer.md R92 steps 2 and 3). -/
def State.fetched (s : State) : State := s.beginTick.capture

/-- The byte the bus holds once one operand byte has been read: the byte at PC, or the stale value (20_memory.md R46). -/
def State.afterOne (s : State) : Byte := s.serve s.bus.value s.pc

/-- The byte the bus holds once two operand bytes have been read. -/
def State.afterTwo (s : State) : Byte := s.serve s.afterOne (s.pc + 1)

/-- The memory after a byte is written over the bus: changed only where a device answers (20_memory.md R45, R46). -/
def State.stored (s : State) (m : Memory) (a : Word) (v : Byte) : Memory := if s.backed a then m.write a v else m

/-! ## Shifts as numbers -/

/-- What a shift or rotate makes of a byte and the carry, as numbers: the result and the carry out (45_incdec_shift.md
R187 to R190). -/
def shiftResult (op : Mnemonic) (v : Byte) (carry : Nat) : Option (Nat × Bool) :=
  match op with
  | .asl => some (2 * v.toNat % 256, decide (v.toNat ≥ 128))
  | .lsr => some (v.toNat / 2, decide (v.toNat % 2 = 1))
  | .rol => some ((2 * v.toNat + carry) % 256, decide (v.toNat ≥ 128))
  | .ror => some (v.toNat / 2 + 128 * carry, decide (v.toNat % 2 = 1))
  | _ => none

/-! ## Timing -/

/-- The bus reads of a mode routine, `k_mode` (41_addressing_modes.md R134). -/
def modeReads : Mode → Nat
  | .imp | .acc | .imm => 0
  | .zp | .zpx | .zpy | .rel => 1
  | .abs | .abx | .aby => 2
  | .izx | .izy => 3
  | .ind => 4

/-- The bus accesses of an operation, `k_op` (70_reset_and_hazards.md R261). -/
def operationAccesses (op : Mnemonic) (mode : Mode) : Nat :=
  match op with
  | .lda | .ldx | .ldy | .adc | .sbc | .and | .ora | .eor | .cmp | .cpx | .cpy | .bit => 1
  | .sta | .stx | .sty => 1
  | .inc | .dec => 2
  | .asl | .lsr | .rol | .ror => if mode = .acc then 0 else 2
  | .tax | .tay | .txa | .tya | .tsx | .txs | .inx | .iny | .dex | .dey
  | .clc | .sec | .cli | .sei | .clv | .cld | .sed | .nop => 0
  | .pha | .php | .pla | .plp => 1
  | .bcc | .bcs | .beq | .bne | .bmi | .bpl | .bvc | .bvs | .jmp | .brk => 0
  | .jsr | .rts => 2
  | .rti => 3

/-- `k = k_mode + k_op`, the bus accesses of an instruction after its opcode fetch. -/
def accesses (i : Instr) : Nat := modeReads i.mode + operationAccesses i.mnemonic i.mode

/-- Whether a branch goes to another page than the next instruction's (46_control_transfer.md R195). -/
def crossesPage (i : Instr) (s : State) : Bool :=
  highByte (i.address s).1 != highByte (i.address s).2.pc

/-- The declared total T of an instruction in a state: column T of 30_encoding.md R76, 3 for a branch that is taken. -/
def declaredTotal (i : Instr) (s : State) : Nat :=
  if i.mode = .rel then (if taken i.mnemonic s then 3 else 2)
  else (((encode i).head?.bind table).map Entry.total).getD 0

/-- `e`, the value of `extra` when an instruction that found it 0 calls `Stall` (40_clock_step_sequencer.md R105). -/
def extraCycles (i : Instr) (s : State) : Nat :=
  if i.mode = .rel then (if taken i.mnemonic s && crossesPage i s then 1 else 0) else (i.address s).2.extra

/-- The period `max(k + 1, T + e)` (40_clock_step_sequencer.md R105). -/
def period (i : Instr) (s : State) : Nat := max (accesses i + 1) (declaredTotal i s + extraCycles i s)

end Sys2Proof.Machine
end

