-- ==== Sys2Proof/Certificates/Slice0/Obligations.lean ====
section
/-! DEFINITION. The statements for the provers. Each docstring says what the statement formalises and the rule it rests on.
In every statement about an instruction, `s` is the state in its decode tick: the opcode byte captured, PC at the byte
after it. -/

open Sys2Proof Sys2Proof.Machine

/-- For every well-formed instruction of the 151 and every list of bytes after it, decoding its bytes gives the
instruction and the bytes after it. (30_encoding.md R70, 30_encoding.md R71, 30_encoding.md R72, 30_encoding.md
R76) -/
def Obligations.DecodeOfEncode : Prop :=
  ∀ (i : Instr) (rest : List Byte), i.WellFormed = true → decode (encode i ++ rest) = .ok (i, rest)

/-- If bytes decode to an instruction with some bytes left, the instruction is well formed and the bytes are its
encoding followed by those left: each byte string has one meaning and no bit is dropped. (30_encoding.md R70,
30_encoding.md R71, 30_encoding.md R72) -/
def Obligations.EncodeOfDecode : Prop :=
  ∀ (bytes rest : List Byte) (i : Instr), decode bytes = .ok (i, rest) → i.WellFormed = true ∧ bytes = encode i ++ rest

/-- If bytes that begin with op decode to an instruction, slot op of the instruction table is populated with its
mnemonic and mode, and the instruction took as many bytes as its length. (30_encoding.md R70, 30_encoding.md
R71, 10_state.md R29) -/
def Obligations.OpcodeByteSelectsEntry : Prop :=
  ∀ (op : Byte) (bytes rest : List Byte) (i : Instr), decode (op :: bytes) = .ok (i, rest) →
    (∃ total, table op = some ⟨i.mnemonic, i.mode, total⟩) ∧ (op :: bytes).length = i.length + rest.length

/-- The list of illegal bytes has 105 entries without repeats; for every byte and every continuation, decoding is
refused as an illegal opcode exactly when the byte is in the list, and exactly then its slot of the instruction
table is unpopulated. (30_encoding.md R78, 30_encoding.md R76) -/
def Obligations.IllegalBytesAreThe105 : Prop :=
  illegalBytes.length = 105 ∧ illegalBytes.Nodup ∧
    ∀ (op : Byte) (rest : List Byte),
      (decode (op :: rest) = .error (.illegalOpcode op) ↔ op ∈ illegalBytes) ∧ (table op = none ↔ op ∈ illegalBytes)

/-- One word of each family: AD FF 00 is LDA $00FF, 9A is TXS, 71 10 is ADC ($10),Y, 7E 34 12 is ROR $1234,X, D0 F9
is BNE -7, 6C 34 12 is JMP ($1234), F8 is SED, 02 is illegal. (30_encoding.md R71, 30_encoding.md R76,
30_encoding.md R80) -/
def Obligations.SampleWordsDecode : Prop :=
  decode [0xAD, 0xFF, 0x00] = .ok (.ldaAbs 0x00FF, []) ∧ decode [0x9A] = .ok (.txs, []) ∧
    decode [0x71, 0x10] = .ok (.adcIzy 0x10, []) ∧ decode [0x7E, 0x34, 0x12] = .ok (.rorAbx 0x1234, []) ∧
    decode [0xD0, 0xF9] = .ok (.bne (-7), []) ∧ decode [0x6C, 0x34, 0x12] = .ok (.jmpInd 0x1234, []) ∧
    decode [0xF8] = .ok (.sed, []) ∧ decode [0x02] = .error (.illegalOpcode 0x02)

/-- At an instruction boundary whose fetched bytes decode to i, the step runs exec i on the decode-tick state with
the cycle counter at 0; if exec answers t, the step answers t with the next opcode fetch asserted, or t itself
if t is halted. (40_clock_step_sequencer.md R92, 40_clock_step_sequencer.md R93, 20_memory.md R55) -/
def Obligations.StepRunsDecodedInstruction : Prop :=
  ∀ (s t : State) (i : Instr), s.halted = false → s.seq = .idle → s.fetched.decoded = some i →
    exec i (s.fetched.setCyc 0) = .next t →
    (t.halted = false → step s = .next t.issueFetch) ∧ (t.halted = true → step s = .next t)

/-- In a running state that satisfies the invariants with no sequence in flight, if memory from PC - 1 on is backed
and holds the encoding of a well-formed instruction i, the bytes decode to i and the step is exec of i followed
by the next opcode fetch, unless i halted the core. (10_state.md R31, 30_encoding.md R73,
40_clock_step_sequencer.md R92, 20_memory.md R55) -/
def Obligations.StepRunsInstructionInMemory : Prop :=
  ∀ (s : State) (i : Instr), s.Inv → s.halted = false → s.seq = .idle → i.WellFormed = true →
    (∀ (k : Nat) (b : Byte), (encode i)[k]? = some b →
      s.backed (s.pc - 1 + BitVec.ofNat 16 k) = true ∧ s.mem.read (s.pc - 1 + BitVec.ofNat 16 k) = b) →
    s.fetched.decoded = some i ∧
      ∃ t, exec i (s.fetched.setCyc 0) = .next t ∧ step s = .next (if t.halted then t else t.issueFetch)

/-- From every state the step answers a next state, and at least one tick passes: no instruction, opcode byte,
operand or memory configuration stops the machine. (60_exceptions.md R234, 40_clock_step_sequencer.md R111) -/
def Obligations.StepAlwaysAnswers : Prop :=
  ∀ s : State, ∃ t, step s = .next t ∧ s.ticks < t.ticks

/-- At a boundary with a pending opcode read, if the captured byte op selects an unpopulated slot, one tick emits
the diagnostic IllegalOpcode(op), asserts the read at PC and advances PC by one; every register, P, the cycle
counter, the extra-stall counter, halted, the Idle sequencer, memory and the windows are unchanged. (R231) -/
def Obligations.IllegalOpcodeSkips : Prop :=
  ∀ s : State, s.halted = false → s.seq = .idle → s.pending = true → s.bus.dir = .read →
    table s.fetched.latch = none →
    ∃ t, step s = .next t ∧ tick s = t ∧ t.pc = s.pc + 1 ∧ t.bus.dir = .read ∧ t.bus.addr = s.pc ∧ t.pending = true ∧
      t.diags = ⟨s.ticks + 1, .illegalOpcode s.fetched.latch⟩ :: s.diags ∧ t.ticks = s.ticks + 1 ∧
      t.cyc = s.cyc ∧ t.extra = s.extra ∧ t.mem = s.mem ∧ t.p = s.p ∧ Frame [] [] [] s t

/-- In a halted state the core step changes nothing, so a tick and a step are the device phase alone, and with a
read held on the bus every field but the bus value and the tick count stays. (10_state.md R22, 60_exceptions.md
R243, 60_exceptions.md R244, 40_clock_step_sequencer.md R92) -/
def Obligations.HaltedCoreDoesNothing : Prop :=
  ∀ s : State, s.halted = true → coreStep s = s ∧ tick s = s.beginTick ∧ step s = .next s.beginTick ∧
    (s.bus.dir = .read → ∃ v, s.beginTick = { s with bus := ⟨.read, s.bus.addr, v⟩, ticks := s.ticks + 1 })

/-- From a running state that satisfies the invariants, a step that halts the core decoded BRK at an instruction
boundary. (10_state.md R22, 60_exceptions.md R243, 47_flags_system.md R226) -/
def Obligations.OnlyBrkHalts : Prop :=
  ∀ s t : State, s.Inv → s.halted = false → step s = .next t → t.halted = true →
    s.seq = .idle ∧ s.fetched.decoded = some .brk

/-- Whenever the step answers t from s, running the tick-level machine (device phase, then the clock step of R92
over micro-step sequences) for the number of ticks the step counted gives t itself, in every field: registers,
flags, PC, memory, bus record, latch, counters, sequencer and diagnostics. (00_scope.md R8, 20_memory.md R55,
40_clock_step_sequencer.md R92, 40_clock_step_sequencer.md R94, 40_clock_step_sequencer.md R109) -/
def Obligations.StepIsItsTicks : Prop :=
  ∀ s t : State, step s = .next t → ticksAfter (t.ticks - s.ticks) s = t

/-- If a state satisfies R31 (a) to (e), has memory in canonical form and an orderly suspended sequence, so does the
state its step answers. (10_state.md R31, 20_memory.md R49) -/
def Obligations.InvariantsKeptByStep : Prop :=
  ∀ s t : State, s.Inv → step s = .next t → t.Inv

/-- If a state satisfies the invariants, so does the state one tick later, in the middle of an instruction too.
(10_state.md R31, 40_clock_step_sequencer.md R92) -/
def Obligations.InvariantsKeptByTick : Prop :=
  ∀ s : State, s.Inv → (tick s).Inv

/-- Power-on with any register values, windows and canonical memory image satisfies the invariants; State.reset
does, whose parameters are the model's choice (log entries 1, 3, 4). (10_state.md R31, 10_state.md R33,
70_reset_and_hazards.md R250) -/
def Obligations.InvariantsAtPowerOn : Prop :=
  (∀ c : PowerOn, Memory.wf c.mem = true → (State.powerOn c).Inv) ∧ State.reset.Inv

/-- For every step from every state: P[4] is as before, P[5] stays 1 if it was 1, and the windows of the memory
devices are as before. (10_state.md R18, 10_state.md R19, 20_memory.md R45) -/
def Obligations.BreakUnusedAndWindowsNeverChange : Prop :=
  ∀ s t : State, step s = .next t →
    t.flag .b = s.flag .b ∧ (s.flag .u = true → t.flag .u = true) ∧ t.devices = s.devices

/-- PowerOn with parameters c: registers as c gives them with P[5] = 1, PC 0x0001, not halted, the reset sequence at
its start, cyc and extra 0, a read of 0x0000 pending on the bus, memory and windows as c gives them; in the
model's own fields, no tick elapsed and no diagnostic emitted (log entry 8). (70_reset_and_hazards.md R250,
10_state.md R33, 10_state.md R18) -/
def Obligations.PowerOnState : Prop :=
  ∀ c : PowerOn, let s := State.powerOn c
    s.a = c.a ∧ s.x = c.x ∧ s.y = c.y ∧ s.sp = c.sp ∧ s.latch = c.latch ∧
      (∀ f, s.flag f = if f = .u then true else c.p.getLsbD f.bit) ∧ s.pc = 0x0001 ∧ s.halted = false ∧
      s.seq = .resetStart ∧ s.cyc = 0 ∧ s.extra = 0 ∧ s.pending = true ∧ s.bus.dir = .read ∧ s.bus.addr = 0x0000 ∧
      s.mem = c.mem ∧ s.devices = c.devices ∧ s.ticks = 0 ∧ s.diags = []

/-- From a running state with the reset sequence at its start and a read held on the bus: after three ticks PC is
the vector (low byte read first, at 0xFFFC) and A, X, Y are 0; after ten ticks the sequence is still stalling;
after eleven the sequencer is Idle with the opcode read at the vector outstanding, PC is the vector plus one,
and S, P, extra, memory and the diagnostics are unchanged. (70_reset_and_hazards.md R251,
70_reset_and_hazards.md R255, 10_state.md R33) -/
def Obligations.ResetSequenceLoadsVector : Prop :=
  ∀ s : State, s.seq = .resetStart → s.halted = false → s.bus.dir = .read →
    let lo := s.serve (s.serve s.bus.value s.bus.addr) 0xFFFC
    let hi := s.serve lo 0xFFFD
    let t3 := ticksAfter 3 s
    let t := ticksAfter 11 s
    (t3.pc = wordOf hi lo ∧ t3.a = 0 ∧ t3.x = 0 ∧ t3.y = 0) ∧ (ticksAfter 10 s).seq ≠ .idle ∧
      t.pc = wordOf hi lo + 1 ∧ t.a = 0 ∧ t.x = 0 ∧ t.y = 0 ∧ t.sp = s.sp ∧ t.p = s.p ∧ t.halted = false ∧
      t.seq = .idle ∧ t.pending = true ∧ t.bus.dir = .read ∧ t.bus.addr = wordOf hi lo ∧ t.extra = s.extra ∧
      t.mem = s.mem ∧ t.diags = s.diags ∧ t.ticks = s.ticks + 11

/-- With the sequencer Idle or the reset sequence at its start, reset() clears halted and extra, puts the reset
sequence at its start and changes nothing else, and a second call at once answers the identical state. In any
other state, where R253 gives no defined result, the model refuses it by name: the model's treatment (log entry
12), by the spec's decision D21; that extra is cleared is its decision D8. (70_reset_and_hazards.md R253,
70_reset_and_hazards.md R254, 92_eei_decisions.md D8, 92_eei_decisions.md D21) -/
def Obligations.ResetEntryPoint : Prop :=
  ∀ s : State,
    (s.seq = .idle ∨ s.seq = .resetStart →
      s.hostReset = .next { s with halted := false, extra := 0, seq := .resetStart }) ∧
    (s.seq ≠ .idle → s.seq ≠ .resetStart → s.hostReset = .refused .resetMidInstruction) ∧
    ∀ t, s.hostReset = .next t → t.hostReset = .next t

/-- With the sequencer Idle each write accessor stores the value masked to its register's width and changes nothing
else, so a PC write leaves the outstanding fetch; the snapshot is A, X, Y, S, PC, P with bit 5 as 1, and halted.
With a sequence in flight, where the spec gives no move (U5), each write is refused by name: the model's choice
(log entry 12). (10_state.md R32, 92_eei_decisions.md D16, 93_implementation_defined.md U5) -/
def Obligations.HostRegisterAccess : Prop :=
  (∀ (s : State) (v : Nat), s.seq = .idle →
      s.hostWriteA v = .next { s with a := BitVec.ofNat 8 (v % 256) } ∧
      s.hostWriteX v = .next { s with x := BitVec.ofNat 8 (v % 256) } ∧
      s.hostWriteY v = .next { s with y := BitVec.ofNat 8 (v % 256) } ∧
      s.hostWritePc v = .next { s with pc := BitVec.ofNat 16 (v % 65536) }) ∧
    (∀ (s : State) (v : Nat), s.seq ≠ .idle →
      s.hostWriteA v = .refused .registerWriteMidInstruction ∧ s.hostWriteX v = .refused .registerWriteMidInstruction ∧
      s.hostWriteY v = .refused .registerWriteMidInstruction ∧ s.hostWritePc v = .refused .registerWriteMidInstruction) ∧
    ∀ s : State, s.snapshot = ⟨s.a, s.x, s.y, s.sp, s.pc, s.p ||| 0x20, s.halted⟩

/-- A backed read publishes the stored byte and leaves memory; a backed write stores the bus value at the address,
leaves every other byte and the record; a read or write of an unbacked address changes nothing at all. (R45) -/
def Obligations.DevicePhaseServesTheRecord : Prop :=
  ∀ s : State,
    (s.bus.dir = .read → s.backed s.bus.addr = true →
      s.devicePhase = { s with bus := ⟨.read, s.bus.addr, s.mem.read s.bus.addr⟩ }) ∧
    (s.bus.dir = .write → s.backed s.bus.addr = true → s.mem.wf = true →
      s.devicePhase.mem.read s.bus.addr = s.bus.value ∧
      (∀ b, b ≠ s.bus.addr → s.devicePhase.mem.read b = s.mem.read b) ∧
      s.devicePhase = { s with mem := s.devicePhase.mem }) ∧
    (s.backed s.bus.addr = false → s.devicePhase = s)

/-- For a state with memory in canonical form, a second device phase on the unchanged record leaves the state the
first one left. (20_memory.md R47, 70_reset_and_hazards.md R262) -/
def Obligations.HeldTransactionIsIdempotent : Prop :=
  ∀ s : State, s.mem.wf = true → s.devicePhase.devicePhase = s.devicePhase

/-- MemRead of an unbacked address returns the byte the bus already held and leaves it there; MemWrite to one leaves
memory as it was and only the written byte on the bus. (R46) -/
def Obligations.UnbackedAccess : Prop :=
  ∀ (s : State) (a : Word) (v : Byte), s.backed a = false →
    (s.memRead a).1 = s.bus.value ∧ (s.memRead a).2.bus.value = s.bus.value ∧ (s.memRead a).2.mem = s.mem ∧
      (s.memWrite a v).mem = s.mem ∧ (s.memWrite a v).bus.value = v ∧ Frame [] [] [] s (s.memRead a).2 ∧
      Frame [] [] [] s (s.memWrite a v)

/-- With memory canonical: after MemWrite(a, v) to a backed address, any number of stall ticks and a MemRead,
reading a gives v and reading another backed address gives what it held before. (20_memory.md R56, 20_memory.md
R44, 20_memory.md R42, 95_test_vectors.md E1) -/
def Obligations.ReadAfterWriteOverTheBus : Prop :=
  ∀ (s : State) (a b : Word) (v : Byte) (n : Nat), s.mem.wf = true → s.backed a = true → s.backed b = true →
    ((State.suspends n (s.memWrite a v)).memRead b).1 = if b = a then v else s.mem.read b

/-- Push(v) writes v at 0x0100 | S and leaves S - 1 modulo 256, S going down as the write is asserted; Pull() leaves
S + 1 modulo 256 and returns the byte the bus delivers at 0x0100 | the new S; each costs one suspension and
emits no diagnostic; Pull after Push on backed, canonical memory returns v and restores S. (R150, R151) -/
def Obligations.PushAndPull : Prop :=
  ∀ (s : State) (v : Byte),
    (State.stackAddr s.sp).toNat = 256 + s.sp.toNat ∧
    s.push v = ((s.setSp (s.sp - 1)).assertWrite (State.stackAddr s.sp) v).nextTick ∧
    ((s.push v).sp.toNat = (s.sp.toNat + 255) % 256 ∧ (s.push v).mem = s.stored s.mem (State.stackAddr s.sp) v ∧
      (s.push v).cyc = s.cyc + 1 ∧ (s.push v).diags = s.diags ∧ (s.push v).bus = ⟨.write, State.stackAddr s.sp, v⟩) ∧
    (s.pull.2.sp.toNat = (s.sp.toNat + 1) % 256 ∧ s.pull.1 = s.serve s.bus.value (State.stackAddr (s.sp + 1)) ∧
      s.pull.2.cyc = s.cyc + 1 ∧ s.pull.2.diags = s.diags ∧ s.pull.2.mem = s.mem) ∧
    (s.mem.wf = true → s.backed (State.stackAddr s.sp) = true → (s.push v).pull.1 = v ∧ (s.push v).pull.2.sp = s.sp)

/-- After SetNZ(v): N is bit 7 of v, Z says whether v is 0, every other flag is as before. (R21) -/
def Obligations.SetNZWritesNAndZ : Prop :=
  ∀ (s : State) (v : Byte) (f : Flag),
    (s.setNZ v).flag f = if f = .n then decide (v.toNat ≥ 128) else if f = .z then decide (v.toNat = 0) else s.flag f

/-- With r = T - (cyc + 1) + extra: the stall takes max(r, 0) ticks, leaves extra 0, emits CycleUnderflow(r) in its
first tick exactly when r is negative, and changes no register and no flag. (R102) -/
def Obligations.StallRule : Prop :=
  ∀ (s : State) (total : Nat),
    let r : Int := (total : Int) - (s.cyc + 1) + s.extra
    ((s.stall total).ticks : Int) = s.ticks + max r 0 ∧ ((s.stall total).cyc : Int) = s.cyc + max r 0 ∧
      (s.stall total).extra = 0 ∧
      (s.stall total).diags = (if r < 0 then ⟨s.ticks, .cycleUnderflow r⟩ :: s.diags else s.diags) ∧
      (s.stall total).pc = s.pc ∧ (∀ g, (s.stall total).reg g = s.reg g) ∧ (∀ f, (s.stall total).flag f = s.flag f)

/-- Immediate returns PC and moves PC on without a bus access; zero-page returns nn, zero-page,X (nn + X) modulo
256, zero-page,Y (nn + Y) modulo 256, each after one read at PC, leaving extra alone; the operand of an
immediate form is read by its operation, at that PC; only LDX and STX use zero-page,Y. (R121, R122, R123, R124) -/
def Obligations.ImmediateAndZeroPageAddresses : Prop :=
  ∀ (nn : Byte) (s : State),
    (immediate s).1 = s.pc ∧ (immediate s).2 = { s with pc := s.pc + 1 } ∧
      (zeroPage nn s).1.toNat = nn.toNat ∧ (zeroPageX nn s).1.toNat = (nn.toNat + s.x.toNat) % 256 ∧
      (zeroPageY nn s).1.toNat = (nn.toNat + s.y.toNat) % 256 ∧
      (immediateByte nn s).2 = ((immediate s).2.memRead s.pc).2 ∧
      (∀ t ∈ [(zeroPage nn s).2, (zeroPageX nn s).2, (zeroPageY nn s).2],
        t.pc = s.pc + 1 ∧ t.cyc = s.cyc + 1 ∧ t.extra = s.extra ∧ t.bus = ⟨.read, s.pc, s.afterOne⟩) ∧
      ∀ i : Instr, i.mode = .zpy → i.mnemonic = .ldx ∨ i.mnemonic = .stx

/-- Absolute returns hh : ll; absolute,X and absolute,Y add the index modulo 65536 and increment extra by one
exactly when the high byte of the result differs from the base's; each makes two reads, at PC and PC + 1. (R125,
R126, R127) -/
def Obligations.AbsoluteAddresses : Prop :=
  ∀ (addr : Word) (s : State),
    (absolute addr s).1 = addr ∧ (absolute addr s).2.extra = s.extra ∧
      (absoluteX addr s).1.toNat = (addr.toNat + s.x.toNat) % 65536 ∧
      (absoluteX addr s).2.extra =
        s.extra + (if (addr.toNat + s.x.toNat) % 65536 / 256 = addr.toNat / 256 then 0 else 1) ∧
      (absoluteY addr s).1.toNat = (addr.toNat + s.y.toNat) % 65536 ∧
      (absoluteY addr s).2.extra =
        s.extra + (if (addr.toNat + s.y.toNat) % 65536 / 256 = addr.toNat / 256 then 0 else 1) ∧
      ∀ t ∈ [(absolute addr s).2, (absoluteX addr s).2, (absoluteY addr s).2],
        t.pc = s.pc + 2 ∧ t.cyc = s.cyc + 2 ∧ t.bus = ⟨.read, s.pc + 1, s.afterTwo⟩

/-- With p = (nn + X) modulo 256, (zero-page,X) returns the word whose low byte the bus delivers at p and whose high
byte it delivers at (p + 1) modulo 256, leaving extra alone; (zero-page),Y does so from nn, adds Y modulo 65536
and increments extra exactly on a page crossing; each makes three reads. (R128, R129) -/
def Obligations.ZeroPagePointerAddresses : Prop :=
  ∀ (nn : Byte) (s : State),
    (let lo := s.serve s.afterOne ((nn + s.x).setWidth 16)
     let hi := s.serve lo ((nn + s.x + 1).setWidth 16)
     (indexedIndirectX nn s).1.toNat = hi.toNat * 256 + lo.toNat ∧ (indexedIndirectX nn s).2.extra = s.extra) ∧
    (let lo := s.serve s.afterOne (nn.setWidth 16)
     let hi := s.serve lo ((nn + 1).setWidth 16)
     let base := hi.toNat * 256 + lo.toNat
     (indirectIndexedY nn s).1.toNat = (base + s.y.toNat) % 65536 ∧
      (indirectIndexedY nn s).2.extra = s.extra + (if (base + s.y.toNat) % 65536 / 256 = hi.toNat then 0 else 1)) ∧
    ∀ t ∈ [(indexedIndirectX nn s).2, (indirectIndexedY nn s).2], t.pc = s.pc + 1 ∧ t.cyc = s.cyc + 3 ∧ t.bus.dir = .read

/-- For every offset in -128 to 127, relative returns (PC + 1 + offset) modulo 65536 after one read at PC, leaving
extra alone. (R130) -/
def Obligations.RelativeTarget : Prop :=
  ∀ (offset : Int) (s : State), OffsetInRange offset →
    ((relative offset s).1.toNat : Int) = (s.pc.toNat + 1 + offset) % 65536 ∧ (relative offset s).2.pc = s.pc + 1 ∧
      (relative offset s).2.cyc = s.cyc + 1 ∧ (relative offset s).2.extra = s.extra

/-- The low byte comes from the pointer; the high byte comes from pointer + 1 when the pointer's low byte is not
0xFF, and from the start of the pointer's page when it is; four reads; only the indirect JMP uses the mode.
(R132) -/
def Obligations.AbsoluteIndirectPageWrap : Prop :=
  ∀ (ptr : Word) (s : State),
    let high : Word := if ptr.toNat % 256 = 255 then BitVec.ofNat 16 (ptr.toNat - 255) else ptr + 1
    let lo := s.serve s.afterTwo ptr
    (absoluteIndirect ptr s).1 = wordOf (s.serve lo high) lo ∧ (absoluteIndirect ptr s).2.pc = s.pc + 2 ∧
      (absoluteIndirect ptr s).2.cyc = s.cyc + 4 ∧ (absoluteIndirect ptr s).2.extra = s.extra ∧
      ∀ i : Instr, i.mode = .ind → ∃ p, i = .jmpInd p

/-- For every instruction with an immediate operand the operand byte is that operand; for every other instruction it
is the stored byte at its effective address where a device answers, and otherwise the byte its mode routine left
on the bus. (42_load_store.md R140, 44_arithmetic_logic.md R176, 41_addressing_modes.md R121, 20_memory.md R46) -/
def Obligations.OperandByteOfEachForm : Prop :=
  (∀ (nn : Byte) (s : State), ∀ i ∈ [Instr.ldaImm nn, .ldxImm nn, .ldyImm nn, .adcImm nn, .sbcImm nn, .andImm nn,
      .oraImm nn, .eorImm nn, .cmpImm nn, .cpxImm nn, .cpyImm nn], (i.source s).1 = nn) ∧
    ∀ (i : Instr) (s : State), i.mode ≠ .imm →
      (i.source s).1 = if s.backed (i.address s).1 then s.mem.read (i.address s).1 else (i.address s).2.bus.value

/-- For every instruction the mode routine leaves A, X, Y, S, P, memory, halted, the sequencer and the windows,
advances PC by the number of operand bytes, and takes as many suspensions as its mode has reads.
(41_addressing_modes.md R120, 41_addressing_modes.md R134) -/
def Obligations.ModesWriteOnlyPc : Prop :=
  ∀ (i : Instr) (s : State),
    Frame [] [] [] s (i.address s).2 ∧ (i.address s).2.mem = s.mem ∧
      (i.address s).2.pc = s.pc + BitVec.ofNat 16 i.mode.operandBytes ∧ (i.address s).2.cyc = s.cyc + modeReads i.mode

/-- For every LDA, LDX and LDY form and every state exec answers a next state whose A, X or Y is the operand byte,
with N its bit 7, Z whether it is 0, and PC past the operand bytes. (42_load_store.md R140, 42_load_store.md
R141, 42_load_store.md R142, 42_load_store.md R143) -/
def Obligations.LoadsTakeTheOperandByte : Prop :=
  (∀ (i : Instr) (s : State), i.mnemonic = .lda → ∃ t, exec i s = .next t ∧
      t.a = (i.source s).1 ∧ t.flag .n = ((i.source s).1).msb ∧ t.flag .z = decide ((i.source s).1 = 0) ∧ t.pc = s.pc + BitVec.ofNat 16 i.mode.operandBytes) ∧
    (∀ (i : Instr) (s : State), i.mnemonic = .ldx → ∃ t, exec i s = .next t ∧
      t.x = (i.source s).1 ∧ t.flag .n = ((i.source s).1).msb ∧ t.flag .z = decide ((i.source s).1 = 0) ∧ t.pc = s.pc + BitVec.ofNat 16 i.mode.operandBytes) ∧
    (∀ (i : Instr) (s : State), i.mnemonic = .ldy → ∃ t, exec i s = .next t ∧
      t.y = (i.source s).1 ∧ t.flag .n = ((i.source s).1).msb ∧ t.flag .z = decide ((i.source s).1 = 0) ∧ t.pc = s.pc + BitVec.ofNat 16 i.mode.operandBytes)

/-- For every STA, STX and STY form and every state with canonical memory exec answers a next state whose memory is
the old one with the register stored at the effective address, unchanged where no device answers, and PC past
the operand bytes. (42_load_store.md R140, 42_load_store.md R144, 42_load_store.md R145, 42_load_store.md R146) -/
def Obligations.StoresWriteOneByte : Prop :=
  (∀ (i : Instr) (s : State), i.mnemonic = .sta → s.mem.wf = true → ∃ t, exec i s = .next t ∧
      t.mem = s.stored s.mem (i.address s).1 s.a ∧ t.pc = s.pc + BitVec.ofNat 16 i.mode.operandBytes) ∧
    (∀ (i : Instr) (s : State), i.mnemonic = .stx → s.mem.wf = true → ∃ t, exec i s = .next t ∧
      t.mem = s.stored s.mem (i.address s).1 s.x ∧ t.pc = s.pc + BitVec.ofNat 16 i.mode.operandBytes) ∧
    (∀ (i : Instr) (s : State), i.mnemonic = .sty → s.mem.wf = true → ∃ t, exec i s = .next t ∧
      t.mem = s.stored s.mem (i.address s).1 s.y ∧ t.pc = s.pc + BitVec.ofNat 16 i.mode.operandBytes)

/-- In every state each transfer completes: its destination holds its source, PC is as the fetch left it, N and Z
follow the value for all but TXS, which leaves P. (43_transfer_stack.md R156, 43_transfer_stack.md R157,
43_transfer_stack.md R158, 43_transfer_stack.md R159, 43_transfer_stack.md R160, 43_transfer_stack.md R161) -/
def Obligations.TransfersCopyARegister : Prop :=
  ∀ s : State,
    (∃ t, exec .tsx s = .next t ∧ t.x = s.sp ∧ t.flag .n = (s.sp).msb ∧ t.flag .z = decide (s.sp = 0) ∧ t.pc = s.pc) ∧
    (∃ t, exec .tax s = .next t ∧ t.x = s.a ∧ t.flag .n = (s.a).msb ∧ t.flag .z = decide (s.a = 0) ∧ t.pc = s.pc) ∧
    (∃ t, exec .tay s = .next t ∧ t.y = s.a ∧ t.flag .n = (s.a).msb ∧ t.flag .z = decide (s.a = 0) ∧ t.pc = s.pc) ∧
    (∃ t, exec .txa s = .next t ∧ t.a = s.x ∧ t.flag .n = (s.x).msb ∧ t.flag .z = decide (s.x = 0) ∧ t.pc = s.pc) ∧
    (∃ t, exec .tya s = .next t ∧ t.a = s.y ∧ t.flag .n = (s.y).msb ∧ t.flag .z = decide (s.y = 0) ∧ t.pc = s.pc) ∧
    (∃ t, exec .txs s = .next t ∧ t.sp = s.x ∧ t.p = s.p ∧ t.pc = s.pc)

/-- In every state with canonical memory each completes: memory holds A, or P | 0x30, at 0x0100 | S where a device
answers, S is one less modulo 256, P and PC are unchanged. (43_transfer_stack.md R152, 43_transfer_stack.md
R153, 43_transfer_stack.md R150) -/
def Obligations.PushesStoreOnTheStack : Prop :=
  ∀ s : State, s.mem.wf = true →
    (∃ t, exec .pha s = .next t ∧ t.mem = s.stored s.mem (State.stackAddr s.sp) s.a ∧ t.sp = s.sp - 1 ∧ t.p = s.p ∧
      t.pc = s.pc) ∧
    (∃ t, exec .php s = .next t ∧ t.mem = s.stored s.mem (State.stackAddr s.sp) (s.p ||| 0x30) ∧ t.sp = s.sp - 1 ∧
      t.p = s.p ∧ t.pc = s.pc)

/-- In every state each completes: S is one more modulo 256 and the byte is what the bus delivers at 0x0100 | the
new S; PLA puts it in A with N and Z; PLP loads N, V, D, I, Z, C from it, keeps B, and U reads 1.
(43_transfer_stack.md R154, 43_transfer_stack.md R155, 43_transfer_stack.md R151) -/
def Obligations.PullsLoadFromTheStack : Prop :=
  ∀ s : State, let v := s.serve s.bus.value (State.stackAddr (s.sp + 1))
    (∃ t, exec .pla s = .next t ∧ t.a = v ∧ t.flag .n = v.msb ∧ t.flag .z = decide (v = 0) ∧ t.sp = s.sp + 1 ∧
      t.pc = s.pc) ∧
    (∃ t, exec .plp s = .next t ∧
      (∀ f, t.flag f = if f = .b then s.flag .b else if f = .u then true else v.getLsbD f.bit) ∧ t.sp = s.sp + 1 ∧
      t.pc = s.pc)

/-- For every form and state, with M the operand byte: ADC completes with A = (A + M + C) mod 256, C = sum above
255, V = signed sum outside -128 to 127; SBC with A = A - M - (1 - C) mod 256, C = A at least M + (1 - C), V =
signed difference outside -128 to 127; N, Z from the result; D kept and not read; PC past the operand bytes.
(44_arithmetic_logic.md R165, 44_arithmetic_logic.md R166, 44_arithmetic_logic.md R167, 44_arithmetic_logic.md
R175) -/
def Obligations.AddAndSubtractWithCarry : Prop :=
  (∀ (i : Instr) (s : State), i.mnemonic = .adc → let m := (i.source s).1; ∃ t, exec i s = .next t ∧
      t.a.toNat = (s.a.toNat + m.toNat + s.carry) % 256 ∧ t.flag .c = decide (s.a.toNat + m.toNat + s.carry > 255) ∧
      t.flag .v = decide (s.a.toInt + m.toInt + s.carry < -128 ∨ s.a.toInt + m.toInt + s.carry > 127) ∧
      t.flag .n = (t.a).msb ∧ t.flag .z = decide (t.a = 0) ∧ t.flag .d = s.flag .d ∧
      t.pc = s.pc + BitVec.ofNat 16 i.mode.operandBytes) ∧
    (∀ (i : Instr) (s : State), i.mnemonic = .sbc → let m := (i.source s).1; ∃ t, exec i s = .next t ∧
      (t.a.toNat : Int) = ((s.a.toNat : Int) - m.toNat - (1 - s.carry)) % 256 ∧
      t.flag .c = decide (s.a.toNat ≥ m.toNat + (1 - s.carry)) ∧
      t.flag .v = decide (s.a.toInt - m.toInt - (1 - s.carry) < -128 ∨ s.a.toInt - m.toInt - (1 - s.carry) > 127) ∧
      t.flag .n = (t.a).msb ∧ t.flag .z = decide (t.a = 0) ∧ t.flag .d = s.flag .d ∧
      t.pc = s.pc + BitVec.ofNat 16 i.mode.operandBytes)

/-- For every form and state, with M the operand byte: exec answers a next state with A & M, A | M or A ^ M in A, N
and Z from it, and PC past the operand bytes. (44_arithmetic_logic.md R168, 44_arithmetic_logic.md R169,
44_arithmetic_logic.md R170) -/
def Obligations.LogicIntoAccumulator : Prop :=
  (∀ (i : Instr) (s : State), i.mnemonic = .and → ∃ t, exec i s = .next t ∧
      t.a = s.a &&& (i.source s).1 ∧ t.flag .n = (t.a).msb ∧ t.flag .z = decide (t.a = 0) ∧ t.pc = s.pc + BitVec.ofNat 16 i.mode.operandBytes) ∧
    (∀ (i : Instr) (s : State), i.mnemonic = .ora → ∃ t, exec i s = .next t ∧
      t.a = s.a ||| (i.source s).1 ∧ t.flag .n = (t.a).msb ∧ t.flag .z = decide (t.a = 0) ∧ t.pc = s.pc + BitVec.ofNat 16 i.mode.operandBytes) ∧
    (∀ (i : Instr) (s : State), i.mnemonic = .eor → ∃ t, exec i s = .next t ∧
      t.a = s.a ^^^ (i.source s).1 ∧ t.flag .n = (t.a).msb ∧ t.flag .z = decide (t.a = 0) ∧ t.pc = s.pc + BitVec.ofNat 16 i.mode.operandBytes)

/-- For every form and state, with M the operand byte and R the register A, X or Y: exec answers a next state with C
= R at least M, Z = R equal to M, N = bit 7 of R - M modulo 256, and PC past the operand bytes.
(44_arithmetic_logic.md R171, 44_arithmetic_logic.md R172, 44_arithmetic_logic.md R173) -/
def Obligations.ComparesSetFlags : Prop :=
  (∀ (i : Instr) (s : State), i.mnemonic = .cmp → ∃ t, exec i s = .next t ∧
      t.flag .c = decide ((i.source s).1.toNat ≤ s.a.toNat) ∧ t.flag .z = decide (s.a = (i.source s).1) ∧
      t.flag .n = decide ((s.a.toNat + 256 - (i.source s).1.toNat) % 256 ≥ 128) ∧ t.pc = s.pc + BitVec.ofNat 16 i.mode.operandBytes) ∧
    (∀ (i : Instr) (s : State), i.mnemonic = .cpx → ∃ t, exec i s = .next t ∧
      t.flag .c = decide ((i.source s).1.toNat ≤ s.x.toNat) ∧ t.flag .z = decide (s.x = (i.source s).1) ∧
      t.flag .n = decide ((s.x.toNat + 256 - (i.source s).1.toNat) % 256 ≥ 128) ∧ t.pc = s.pc + BitVec.ofNat 16 i.mode.operandBytes) ∧
    (∀ (i : Instr) (s : State), i.mnemonic = .cpy → ∃ t, exec i s = .next t ∧
      t.flag .c = decide ((i.source s).1.toNat ≤ s.y.toNat) ∧ t.flag .z = decide (s.y = (i.source s).1) ∧
      t.flag .n = decide ((s.y.toNat + 256 - (i.source s).1.toNat) % 256 ≥ 128) ∧ t.pc = s.pc + BitVec.ofNat 16 i.mode.operandBytes)

/-- For both forms and every state, with M the operand byte: exec answers a next state with Z = (A & M is 0), N =
M[7], V = M[6], A unchanged, and PC past the operand bytes. (44_arithmetic_logic.md R174) -/
def Obligations.BitTestSetsFlags : Prop :=
  (∀ (i : Instr) (s : State), i.mnemonic = .bit → ∃ t, exec i s = .next t ∧
      t.flag .z = decide (s.a &&& (i.source s).1 = 0) ∧ t.flag .n = (i.source s).1.getLsbD 7 ∧
      t.flag .v = (i.source s).1.getLsbD 6 ∧ t.a = s.a ∧ t.pc = s.pc + BitVec.ofNat 16 i.mode.operandBytes)

/-- For every form and every state with canonical memory, with v the operand byte: exec answers a next state whose
memory is the old one with v + 1 or v - 1 modulo 256 stored at the effective address where a device answers, N
and Z from it, and PC past the operand bytes. (45_incdec_shift.md R180, 45_incdec_shift.md R181,
45_incdec_shift.md R182) -/
def Obligations.MemoryIncrementAndDecrement : Prop :=
  (∀ (i : Instr) (s : State), i.mnemonic = .inc → s.mem.wf = true → ∃ t, exec i s = .next t ∧
      t.mem = s.stored s.mem (i.address s).1 ((i.source s).1 + 1) ∧ t.flag .n = ((i.source s).1 + 1).msb ∧ t.flag .z = decide ((i.source s).1 + 1 = 0) ∧
      t.pc = s.pc + BitVec.ofNat 16 i.mode.operandBytes) ∧
    (∀ (i : Instr) (s : State), i.mnemonic = .dec → s.mem.wf = true → ∃ t, exec i s = .next t ∧
      t.mem = s.stored s.mem (i.address s).1 ((i.source s).1 - 1) ∧ t.flag .n = ((i.source s).1 - 1).msb ∧ t.flag .z = decide ((i.source s).1 - 1 = 0) ∧
      t.pc = s.pc + BitVec.ofNat 16 i.mode.operandBytes)

/-- In every state each completes: its register is one more or one less modulo 256, N and Z follow the result, PC is
as the fetch left it. (45_incdec_shift.md R183, 45_incdec_shift.md R184, 45_incdec_shift.md R185,
45_incdec_shift.md R186) -/
def Obligations.RegisterIncrementAndDecrement : Prop :=
  ∀ s : State,
    (∃ t, exec .inx s = .next t ∧ t.x.toNat = (s.x.toNat + 1) % 256 ∧ t.flag .n = (t.x).msb ∧ t.flag .z = decide (t.x = 0) ∧ t.pc = s.pc) ∧
    (∃ t, exec .iny s = .next t ∧ t.y.toNat = (s.y.toNat + 1) % 256 ∧ t.flag .n = (t.y).msb ∧ t.flag .z = decide (t.y = 0) ∧ t.pc = s.pc) ∧
    (∃ t, exec .dex s = .next t ∧ t.x.toNat = (s.x.toNat + 255) % 256 ∧ t.flag .n = (t.x).msb ∧ t.flag .z = decide (t.x = 0) ∧ t.pc = s.pc) ∧
    (∃ t, exec .dey s = .next t ∧ t.y.toNat = (s.y.toNat + 255) % 256 ∧ t.flag .n = (t.y).msb ∧ t.flag .z = decide (t.y = 0) ∧ t.pc = s.pc)

/-- In every state each accumulator form completes with A and C as the shift or the nine-bit rotation gives them as
numbers, N and Z from the new A, and PC as the fetch left it. (45_incdec_shift.md R180, 45_incdec_shift.md R187,
45_incdec_shift.md R188, 45_incdec_shift.md R189, 45_incdec_shift.md R190) -/
def Obligations.ShiftsOnTheAccumulator : Prop :=
  ∀ (i : Instr) (s : State), i.mode = .acc →
    ∃ t w c, exec i s = .next t ∧ shiftResult i.mnemonic s.a s.carry = some (w, c) ∧ t.a.toNat = w ∧ t.flag .c = c ∧
      t.flag .n = (t.a).msb ∧ t.flag .z = decide (t.a = 0) ∧ t.pc = s.pc

/-- For every memory form and every state with canonical memory, with v the operand byte: exec answers a next state
whose memory is the old one with the shifted byte stored at the effective address where a device answers, C the
bit shifted out, N and Z from the stored byte, and PC past the operand bytes. (45_incdec_shift.md R180,
45_incdec_shift.md R187, 45_incdec_shift.md R188, 45_incdec_shift.md R189, 45_incdec_shift.md R190) -/
def Obligations.ShiftsOnMemory : Prop :=
  ∀ (i : Instr) (s : State), i.mnemonic ∈ [.asl, .lsr, .rol, .ror] → i.mode ≠ .acc → s.mem.wf = true →
    ∃ t c, ∃ w : Byte, exec i s = .next t ∧ shiftResult i.mnemonic (i.source s).1 s.carry = some (w.toNat, c) ∧
      t.mem = s.stored s.mem (i.address s).1 w ∧ t.flag .c = c ∧ t.flag .n = (w).msb ∧ t.flag .z = decide (w = 0) ∧
      t.pc = s.pc + BitVec.ofNat 16 i.mode.operandBytes

/-- For every offset and state: BCC, BCS, BEQ, BNE, BMI, BPL, BVC, BVS complete with PC = PC + 1 + offset modulo
65536 when C is 0, C is 1, Z is 1, Z is 0, N is 1, N is 0, V is 0, V is 1, and PC + 1 otherwise.
(46_control_transfer.md R195, 46_control_transfer.md R196, 46_control_transfer.md R197, 46_control_transfer.md
R198, 46_control_transfer.md R199, 46_control_transfer.md R200, 46_control_transfer.md R201,
46_control_transfer.md R202, 46_control_transfer.md R203) -/
def Obligations.BranchesTestOneFlag : Prop :=
  ∀ (o : Int) (s : State),
    (∃ t, exec (.bcc o) s = .next t ∧ t.pc = if s.flag .c = false then s.pc + 1 + BitVec.ofInt 16 o else s.pc + 1) ∧
    (∃ t, exec (.bcs o) s = .next t ∧ t.pc = if s.flag .c = true then s.pc + 1 + BitVec.ofInt 16 o else s.pc + 1) ∧
    (∃ t, exec (.beq o) s = .next t ∧ t.pc = if s.flag .z = true then s.pc + 1 + BitVec.ofInt 16 o else s.pc + 1) ∧
    (∃ t, exec (.bne o) s = .next t ∧ t.pc = if s.flag .z = false then s.pc + 1 + BitVec.ofInt 16 o else s.pc + 1) ∧
    (∃ t, exec (.bmi o) s = .next t ∧ t.pc = if s.flag .n = true then s.pc + 1 + BitVec.ofInt 16 o else s.pc + 1) ∧
    (∃ t, exec (.bpl o) s = .next t ∧ t.pc = if s.flag .n = false then s.pc + 1 + BitVec.ofInt 16 o else s.pc + 1) ∧
    (∃ t, exec (.bvc o) s = .next t ∧ t.pc = if s.flag .v = false then s.pc + 1 + BitVec.ofInt 16 o else s.pc + 1) ∧
    (∃ t, exec (.bvs o) s = .next t ∧ t.pc = if s.flag .v = true then s.pc + 1 + BitVec.ofInt 16 o else s.pc + 1)

/-- For every operand and state both forms complete: PC is the operand word, or the word the absolute-indirect mode
read at it. (46_control_transfer.md R204, 46_control_transfer.md R205) -/
def Obligations.JumpsGoToTheirAddress : Prop :=
  ∀ (addr : Word) (s : State),
    (∃ t, exec (.jmpAbs addr) s = .next t ∧ t.pc = addr) ∧
    (∃ t, exec (.jmpInd addr) s = .next t ∧ t.pc = (absoluteIndirect addr s).1)

/-- For every operand and every state with canonical memory JSR completes: the high byte of PC + 1 (PC is the
address after the opcode) is stored at 0x0100 | S, then the low byte at 0x0100 | (S - 1), where devices answer;
S is two less; PC is the operand; P is unchanged. (46_control_transfer.md R206, 46_control_transfer.md R209,
20_memory.md R50) -/
def Obligations.JsrPushesReturnAddress : Prop :=
  ∀ (addr : Word) (s : State), s.mem.wf = true →
    ∃ t, exec (.jsr addr) s = .next t ∧
      t.mem = s.stored (s.stored s.mem (State.stackAddr s.sp) (highByte (s.pc + 1)))
        (State.stackAddr (s.sp - 1)) (lowByte (s.pc + 1)) ∧
      t.sp = s.sp - 2 ∧ t.pc = addr ∧ t.p = s.p

/-- In every state RTS completes with PC = (hi : lo) + 1 from two pulled bytes, low first, S two more and P
unchanged; RTI completes with every flag but B and U from the first pulled byte, PC = hi : lo from the next two,
and S three more. Each byte is what the bus delivers at its stack address. (46_control_transfer.md R207,
46_control_transfer.md R208, 60_exceptions.md R236) -/
def Obligations.ReturnsPullTheirAddress : Prop :=
  ∀ s : State,
    (let lo := s.serve s.bus.value (State.stackAddr (s.sp + 1))
     let hi := s.serve lo (State.stackAddr (s.sp + 2))
     ∃ t, exec .rts s = .next t ∧ t.pc = wordOf hi lo + 1 ∧ t.sp = s.sp + 2 ∧ t.p = s.p) ∧
    (let v := s.serve s.bus.value (State.stackAddr (s.sp + 1))
     let lo := s.serve v (State.stackAddr (s.sp + 2))
     let hi := s.serve lo (State.stackAddr (s.sp + 3))
     ∃ t, exec .rti s = .next t ∧ t.pc = wordOf hi lo ∧ t.sp = s.sp + 3 ∧
      ∀ f, t.flag f = if f = .b then s.flag .b else if f = .u then true else v.getLsbD f.bit)

/-- If JSR answers t from a state with canonical memory whose two stack bytes are backed, it has stored the high
byte of its last byte's address, then the low byte, and from every state with t's stack pointer, memory and
windows RTS completes with PC at the instruction after the JSR and S as before it. (R209) -/
def Obligations.RtsReturnsAfterJsr : Prop :=
  ∀ (addr : Word) (s t u : State), s.mem.wf = true → s.backed (State.stackAddr s.sp) = true →
    s.backed (State.stackAddr (s.sp - 1)) = true → exec (.jsr addr) s = .next t →
    u.sp = t.sp → u.mem = t.mem → u.devices = t.devices →
    t.mem = (s.mem.write (State.stackAddr s.sp) (highByte (s.pc + 1))).write (State.stackAddr (s.sp - 1))
        (lowByte (s.pc + 1)) ∧
      ∃ v, exec .rts u = .next v ∧ v.pc = s.pc + 1 + 1 ∧ v.sp = s.sp

/-- In every state each completes: its flag has its value, every other bit of P is unchanged, PC is as the fetch
left it; entered with cyc and extra 0 each adds one tick to its decode tick; NOP leaves the whole snapshot.
(47_flags_system.md R215, 47_flags_system.md R216, 47_flags_system.md R217, 47_flags_system.md R218,
47_flags_system.md R219, 47_flags_system.md R220, 47_flags_system.md R221, 47_flags_system.md R222) -/
def Obligations.FlagInstructionsWriteOneFlag : Prop :=
  ∀ (s : State) (f : Flag),
    (∃ t, exec .clc s = .next t ∧ t.flag f = (if f = .c then false else s.flag f) ∧ t.pc = s.pc ∧
      (s.cyc = 0 → s.extra = 0 → t.ticks = s.ticks + 1)) ∧
    (∃ t, exec .sec s = .next t ∧ t.flag f = (if f = .c then true else s.flag f) ∧ t.pc = s.pc ∧
      (s.cyc = 0 → s.extra = 0 → t.ticks = s.ticks + 1)) ∧
    (∃ t, exec .cli s = .next t ∧ t.flag f = (if f = .i then false else s.flag f) ∧ t.pc = s.pc ∧
      (s.cyc = 0 → s.extra = 0 → t.ticks = s.ticks + 1)) ∧
    (∃ t, exec .sei s = .next t ∧ t.flag f = (if f = .i then true else s.flag f) ∧ t.pc = s.pc ∧
      (s.cyc = 0 → s.extra = 0 → t.ticks = s.ticks + 1)) ∧
    (∃ t, exec .clv s = .next t ∧ t.flag f = (if f = .v then false else s.flag f) ∧ t.pc = s.pc ∧
      (s.cyc = 0 → s.extra = 0 → t.ticks = s.ticks + 1)) ∧
    (∃ t, exec .cld s = .next t ∧ t.flag f = (if f = .d then false else s.flag f) ∧ t.pc = s.pc ∧
      (s.cyc = 0 → s.extra = 0 → t.ticks = s.ticks + 1)) ∧
    (∃ t, exec .sed s = .next t ∧ t.flag f = (if f = .d then true else s.flag f) ∧ t.pc = s.pc ∧
      (s.cyc = 0 → s.extra = 0 → t.ticks = s.ticks + 1)) ∧
    (∃ t, exec .nop s = .next t ∧ t.snapshot = s.snapshot ∧ (s.cyc = 0 → s.extra = 0 → t.ticks = s.ticks + 1))

/-- exec of BRK answers the state with halted set and no other change. At a running boundary that satisfies the
invariants and whose fetched bytes decode to BRK, the step takes one tick and leaves halted 1, the sequencer
Idle, nothing pending, PC and the bus address as they were (so PC is the BRK's address plus one), extra 0, and
every register, P and memory unchanged; in every later tick the core does nothing. That cyc is left 0 is the
model's choice (log entry 14): R92 step 3c writes it in the decode tick, and U14 leaves cyc while Idle open.
(47_flags_system.md R226, 40_clock_step_sequencer.md R92) -/
def Obligations.BrkHaltsInItsDecodeTick : Prop :=
  (∀ s : State, exec .brk s = .next { s with halted := true }) ∧
    ∀ s : State, s.Inv → s.halted = false → s.seq = .idle → s.fetched.decoded = some .brk →
      ∃ t, step s = .next t ∧ t.halted = true ∧ t.seq = .idle ∧ t.pending = false ∧ t.pc = s.pc ∧
        t.bus.dir = .read ∧ t.bus.addr = s.pc - 1 ∧ t.extra = 0 ∧ t.cyc = 0 ∧ t.mem = s.mem ∧ t.diags = s.diags ∧
        t.ticks = s.ticks + 1 ∧ (∀ r, t.reg r = s.reg r) ∧ (∀ f, t.flag f = s.flag f) ∧
        ∀ n, (ticksAfter n t).halted = true ∧ coreStep (ticksAfter n t) = ticksAfter n t

/-- For every form: LDA, AND, ORA, EOR keep all but A, N, Z; LDX all but X, N, Z; LDY all but Y, N, Z; ADC, SBC all
but A, N, V, Z, C; CMP, CPX, CPY all but N, Z, C; BIT all but N, V, Z; every byte of memory, the other
registers, every other bit of P, halted, the sequencer and the windows are unchanged. (42_load_store.md R140,
44_arithmetic_logic.md R176, 10_state.md R17) -/
def Obligations.LoadAndReadFrames : Prop :=
  (∀ (i : Instr) (s t : State), i.mnemonic ∈ [.lda, .and, .ora, .eor] → exec i s = .next t →
      Frame [.a] [.n, .z] [] s t) ∧
    (∀ (i : Instr) (s t : State), i.mnemonic ∈ [.ldx] → exec i s = .next t →
      Frame [.x] [.n, .z] [] s t) ∧
    (∀ (i : Instr) (s t : State), i.mnemonic ∈ [.ldy] → exec i s = .next t →
      Frame [.y] [.n, .z] [] s t) ∧
    (∀ (i : Instr) (s t : State), i.mnemonic ∈ [.adc, .sbc] → exec i s = .next t →
      Frame [.a] [.n, .v, .z, .c] [] s t) ∧
    (∀ (i : Instr) (s t : State), i.mnemonic ∈ [.cmp, .cpx, .cpy] → exec i s = .next t →
      Frame [] [.n, .z, .c] [] s t) ∧
    (∀ (i : Instr) (s t : State), i.mnemonic ∈ [.bit] → exec i s = .next t →
      Frame [] [.n, .v, .z] [] s t)

/-- For every memory form: STA, STX, STY change no register and no flag; INC, DEC change only N, Z; ASL, LSR, ROL,
ROR on memory only N, Z, C; no byte of memory but the one at the effective address the mode routine computes is
changed. (42_load_store.md R140, 45_incdec_shift.md R180, 10_state.md R17) -/
def Obligations.StoreAndModifyFrames : Prop :=
  (∀ (i : Instr) (s t : State), i.mnemonic ∈ [.sta, .stx, .sty] → exec i s = .next t →
      Frame [] [] [(i.address s).1] s t) ∧
    (∀ (i : Instr) (s t : State), i.mnemonic ∈ [.inc, .dec] → exec i s = .next t →
      Frame [] [.n, .z] [(i.address s).1] s t) ∧
    (∀ (i : Instr) (s t : State), i.mnemonic ∈ [.asl, .lsr, .rol, .ror] → i.mode ≠ .acc → exec i s = .next t →
      Frame [] [.n, .z, .c] [(i.address s).1] s t)

/-- With a read held on the bus, as at every opcode fetch: TAX, TSX, INX, DEX change only X, N, Z; TAY, INY, DEY
only Y, N, Z; TXA, TYA only A, N, Z; TXS only S; the accumulator shifts only A, N, Z, C; CLC, SEC only C; CLI,
SEI only I; CLV only V; CLD, SED only D; NOP nothing. (43_transfer_stack.md R156, 43_transfer_stack.md R157,
45_incdec_shift.md R180, 47_flags_system.md R222, 10_state.md R17) -/
def Obligations.RegisterInstructionFrames : Prop :=
  (∀ (i : Instr) (s t : State), i.mnemonic ∈ [.tax, .tsx, .inx, .dex] → s.bus.dir = .read → exec i s = .next t →
      Frame [.x] [.n, .z] [] s t) ∧
    (∀ (i : Instr) (s t : State), i.mnemonic ∈ [.tay, .iny, .dey] → s.bus.dir = .read → exec i s = .next t →
      Frame [.y] [.n, .z] [] s t) ∧
    (∀ (i : Instr) (s t : State), i.mnemonic ∈ [.txa, .tya] → s.bus.dir = .read → exec i s = .next t →
      Frame [.a] [.n, .z] [] s t) ∧
    (∀ (i : Instr) (s t : State), i.mnemonic ∈ [.txs] → s.bus.dir = .read → exec i s = .next t →
      Frame [.sp] [] [] s t) ∧
    (∀ (i : Instr) (s t : State), i.mode = .acc → s.bus.dir = .read → exec i s = .next t →
      Frame [.a] [.n, .z, .c] [] s t) ∧
    (∀ (i : Instr) (s t : State), i.mnemonic ∈ [.clc, .sec] → s.bus.dir = .read → exec i s = .next t →
      Frame [] [.c] [] s t) ∧
    (∀ (i : Instr) (s t : State), i.mnemonic ∈ [.cli, .sei] → s.bus.dir = .read → exec i s = .next t →
      Frame [] [.i] [] s t) ∧
    (∀ (i : Instr) (s t : State), i.mnemonic ∈ [.clv] → s.bus.dir = .read → exec i s = .next t →
      Frame [] [.v] [] s t) ∧
    (∀ (i : Instr) (s t : State), i.mnemonic ∈ [.cld, .sed] → s.bus.dir = .read → exec i s = .next t →
      Frame [] [.d] [] s t) ∧
    (∀ (i : Instr) (s t : State), i.mnemonic ∈ [.nop] → s.bus.dir = .read → exec i s = .next t →
      Frame [] [] [] s t)

/-- PHA, PHP change S and the byte at 0x0100 | S; PLA S, A, N, Z; PLP S and the six pulled flags; branches and JMP
no register, flag or memory; JSR S and the two bytes at 0x0100 | S and 0x0100 | (S - 1); RTS S; RTI S and the
six pulled flags. (43_transfer_stack.md R150, 43_transfer_stack.md R151, 43_transfer_stack.md R154,
46_control_transfer.md R195, 46_control_transfer.md R204, 46_control_transfer.md R206, 46_control_transfer.md
R207, 46_control_transfer.md R208) -/
def Obligations.StackAndControlFrames : Prop :=
  (∀ (i : Instr) (s t : State), i.mnemonic ∈ [.pha, .php] → exec i s = .next t →
      Frame [.sp] [] [State.stackAddr s.sp] s t) ∧
    (∀ (i : Instr) (s t : State), i.mnemonic ∈ [.pla] → exec i s = .next t →
      Frame [.a, .sp] [.n, .z] [] s t) ∧
    (∀ (i : Instr) (s t : State), i.mnemonic ∈ [.plp] → s.flag .u = true → exec i s = .next t →
      Frame [.sp] statusFlags [] s t) ∧
    (∀ (i : Instr) (s t : State), i.mnemonic ∈ [.bcc, .bcs, .beq, .bne, .bmi, .bpl, .bvc, .bvs, .jmp] → exec i s = .next t →
      Frame [] [] [] s t) ∧
    (∀ (i : Instr) (s t : State), i.mnemonic ∈ [.jsr] → exec i s = .next t →
      Frame [.sp] [] [State.stackAddr s.sp, State.stackAddr (s.sp - 1)] s t) ∧
    (∀ (i : Instr) (s t : State), i.mnemonic ∈ [.rts] → exec i s = .next t →
      Frame [.sp] [] [] s t) ∧
    (∀ (i : Instr) (s t : State), i.mnemonic ∈ [.rti] → s.flag .u = true → exec i s = .next t →
      Frame [.sp] statusFlags [] s t)

/-- For every instruction but BRK entered with cyc and extra 0: with k its bus accesses, T its declared total and e
the page crossings counted, the next decode tick is max(k + 1, T + e) ticks after its own, extra is 0 at its
end, and CycleUnderflow(T + e - (k + 1)) is emitted in tick k exactly when k + 1 > T + e; the step of an illegal
opcode takes one tick. (R105) -/
def Obligations.PeriodOfEveryInstruction : Prop :=
  (∀ (i : Instr) (s t : State), i.mnemonic ≠ .brk → s.cyc = 0 → s.extra = 0 → exec i s = .next t →
    t.ticks + 1 = s.ticks + period i s ∧ t.extra = 0 ∧
      t.diags = (if accesses i + 1 > declaredTotal i s + extraCycles i s then
          ⟨s.ticks + accesses i, .cycleUnderflow ((declaredTotal i s : Int) + extraCycles i s - (accesses i + 1))⟩ :: s.diags
        else s.diags)) ∧
  ∀ s t : State, s.halted = false → s.seq = .idle → s.fetched.decoded = none → step s = .next t → t.ticks = s.ticks + 1

/-- For every instruction but BRK in a state with extra 0: its accesses exceed its total exactly when it is LDA or
STA in (zero-page,X), or LDA or STA in (zero-page),Y with no page crossed; then its period is 5. (R106) -/
def Obligations.UnderflowCases : Prop :=
  ∀ (i : Instr) (s : State), i.mnemonic ≠ .brk → s.extra = 0 →
    (accesses i + 1 > declaredTotal i s + extraCycles i s ↔
      i.mnemonic ∈ [.lda, .sta] ∧ (i.mode = .izx ∨ (i.mode = .izy ∧ extraCycles i s = 0))) ∧
    (i.mnemonic ∈ [.lda, .sta] → i.mode = .izx ∨ i.mode = .izy → period i s = 5)
end

