-- ==== Sys2Proof/Laws/Memory.lean ====
section
/-! SUPPORT. Memory: a read after a write, and that every write keeps the canonical form. -/

namespace Sys2Proof.Machine.Memory

/-- An address below every listed one reads as unlisted. -/
theorem lookup_below {l a : Nat} {m : Memory} (hm : wfAbove (some l) m = true) (h : a ≤ l) :
    Memory.lookup m a = unlisted := by
  induction m generalizing l with
  | nil => rfl
  | cons c m ih =>
    obtain ⟨k, b⟩ := c
    simp only [wfAbove, Option.all_some, Bool.and_eq_true, decide_eq_true_eq] at hm
    have hk : k ≠ a := by omega
    simp only [lookup, hk, if_false]
    exact ih hm.2 (by omega)

theorem lookup_insert_same {low : Option Nat} {m : Memory} (hm : wfAbove low m = true) (a : Nat) (v : Byte) :
    Memory.lookup (Memory.insert m a v) a = v := by
  induction m generalizing low with
  | nil => by_cases hv : v = unlisted <;> simp [insert, lookup, hv]
  | cons c m ih =>
    obtain ⟨k, b⟩ := c
    simp only [wfAbove, Bool.and_eq_true, decide_eq_true_eq] at hm
    by_cases h1 : a < k
    · have hk : k ≠ a := by omega
      by_cases hv : v = unlisted
      · have hz := lookup_below (a := a) hm.2 (by omega)
        simp [insert, lookup, h1, hv, hk, hz]
      · simp [insert, lookup, h1, hv]
    · by_cases h2 : a = k
      · subst h2
        by_cases hv : v = unlisted
        · simp [insert, hv, lookup_below hm.2 (Nat.le_refl _)]
        · simp [insert, lookup, hv]
      · have hk : k ≠ a := fun e => h2 e.symm
        simp [insert, lookup, h1, h2, hk, ih hm.2]

theorem lookup_insert_other {m : Memory} {a b : Nat} (h : b ≠ a) (v : Byte) :
    Memory.lookup (Memory.insert m a v) b = Memory.lookup m b := by
  have h' : a ≠ b := fun e => h e.symm
  induction m with
  | nil => by_cases hv : v = unlisted <;> simp [insert, lookup, hv, h']
  | cons c m ih =>
    obtain ⟨k, w⟩ := c
    by_cases h1 : a < k
    · by_cases hv : v = unlisted <;> simp [insert, lookup, h1, hv, h']
    · by_cases h2 : a = k
      · subst h2
        by_cases hv : v = unlisted <;> simp [insert, lookup, hv, h']
      · by_cases hb : k = b
        · subst hb
          simp [insert, lookup, h1, h2]
        · simp [insert, lookup, h1, h2, hb, ih]

/-- Writing the byte an address already reads as changes nothing. -/
theorem insert_same_value {low : Option Nat} {m : Memory} (hm : wfAbove low m = true) {a : Nat} {v : Byte}
    (h : Memory.lookup m a = v) : Memory.insert m a v = m := by
  induction m generalizing low with
  | nil => simp only [lookup] at h; simp [insert, h.symm]
  | cons c m ih =>
    obtain ⟨k, b⟩ := c
    simp only [wfAbove, Bool.and_eq_true, decide_eq_true_eq] at hm
    by_cases h1 : a < k
    · have hk : k ≠ a := by omega
      simp only [lookup, hk, if_false] at h
      rw [lookup_below (l := k) hm.2 (by omega)] at h
      simp [insert, h1, h.symm]
    · by_cases h2 : a = k
      · subst h2
        simp only [lookup, if_true] at h
        subst h
        simp [insert, hm.1.2]
      · have hk : k ≠ a := fun e => h2 e.symm
        simp only [lookup, hk, if_false] at h
        simp [insert, h1, h2, ih hm.2 h]

/-- A looser bound keeps the form. -/
theorem wfAbove_none {low : Option Nat} {m : Memory} (hm : wfAbove low m = true) : wfAbove none m = true := by
  cases m with
  | nil => rfl
  | cons c m => simp_all [wfAbove]

theorem wfAbove_insert {low : Option Nat} {m : Memory} (hm : wfAbove low m = true) {a : Nat} (ha : a < 65536)
    (hl : low.all (fun l => decide (l < a)) = true) (v : Byte) : wfAbove low (Memory.insert m a v) = true := by
  induction m generalizing low with
  | nil => by_cases hv : v = unlisted <;> simp [insert, wfAbove, hv, ha, hl]
  | cons c m ih =>
    obtain ⟨k, b⟩ := c
    have hm' := hm
    simp only [wfAbove, Bool.and_eq_true, decide_eq_true_eq] at hm
    obtain ⟨⟨⟨h1, h2⟩, h3⟩, h4⟩ := hm
    by_cases hlt : a < k
    · by_cases hv : v = unlisted
      · simpa [insert, hlt, hv] using hm'
      · simp [insert, hlt, hv, wfAbove, ha, hl, h2, h3, h4]
    · by_cases he : a = k
      · subst he
        by_cases hv : v = unlisted
        · have hi : insert ((a, b) :: m) a v = m := by simp [insert, hv]
          rw [hi]
          cases m with
          | nil => rfl
          | cons d m =>
            obtain ⟨k', b'⟩ := d
            simp only [wfAbove, Option.all_some, Bool.and_eq_true, decide_eq_true_eq] at h4 ⊢
            refine ⟨⟨⟨?_, h4.1.1.2⟩, h4.1.2⟩, h4.2⟩
            cases low with
            | none => rfl
            | some l => simp at h1 ⊢; omega
        · simp [insert, hv, wfAbove, ha, h1, h4]
      · have hr := ih (low := some k) h4 (by simp; omega)
        simp [insert, hlt, he, wfAbove, h1, h2, h3, hr]

/-- Every write keeps the canonical form. -/
theorem wf_write {m : Memory} (hm : m.wf = true) (a : Word) (v : Byte) : (m.write a v).wf = true :=
  wfAbove_insert hm a.isLt rfl v

/-- A read after a write to the same address gives the byte written. -/
theorem read_write_same {m : Memory} (hm : m.wf = true) (a : Word) (v : Byte) : (m.write a v).read a = v :=
  lookup_insert_same hm a.toNat v

/-- A write leaves every other address alone. -/
theorem read_write_other {m : Memory} {a b : Word} (h : b ≠ a) (v : Byte) :
    (m.write a v).read b = m.read b :=
  lookup_insert_other (fun e => h (BitVec.eq_of_toNat_eq e)) v

/-- A write held on the bus is idempotent (20_memory.md R47). -/
theorem write_write {m : Memory} (hm : m.wf = true) (a : Word) (v : Byte) : (m.write a v).write a v = m.write a v :=
  insert_same_value (wf_write hm a v) (read_write_same hm a v)

end Sys2Proof.Machine.Memory
end

