-- ==== Sys2Proof/Laws/State.lean ====
section
/-! SUPPORT. One lemma per field per update of the state, so that no later proof unfolds a record update. -/

namespace Sys2Proof.Machine.State

section
variable (s : State) (v : Byte)

@[simp] theorem setA_a : (s.setA v).a = v := rfl
@[simp] theorem setA_x : (s.setA v).x = s.x := rfl
@[simp] theorem setA_y : (s.setA v).y = s.y := rfl
@[simp] theorem setA_sp : (s.setA v).sp = s.sp := rfl
@[simp] theorem setA_p : (s.setA v).p = s.p := rfl
@[simp] theorem setA_pc : (s.setA v).pc = s.pc := rfl
@[simp] theorem setA_halted : (s.setA v).halted = s.halted := rfl
@[simp] theorem setA_seq : (s.setA v).seq = s.seq := rfl
@[simp] theorem setA_cyc : (s.setA v).cyc = s.cyc := rfl
@[simp] theorem setA_extra : (s.setA v).extra = s.extra := rfl
@[simp] theorem setA_pending : (s.setA v).pending = s.pending := rfl
@[simp] theorem setA_latch : (s.setA v).latch = s.latch := rfl
@[simp] theorem setA_bus : (s.setA v).bus = s.bus := rfl
@[simp] theorem setA_devices : (s.setA v).devices = s.devices := rfl
@[simp] theorem setA_mem : (s.setA v).mem = s.mem := rfl
@[simp] theorem setA_ticks : (s.setA v).ticks = s.ticks := rfl
@[simp] theorem setA_diags : (s.setA v).diags = s.diags := rfl

end

section
variable (s : State) (v : Byte)

@[simp] theorem setX_a : (s.setX v).a = s.a := rfl
@[simp] theorem setX_x : (s.setX v).x = v := rfl
@[simp] theorem setX_y : (s.setX v).y = s.y := rfl
@[simp] theorem setX_sp : (s.setX v).sp = s.sp := rfl
@[simp] theorem setX_p : (s.setX v).p = s.p := rfl
@[simp] theorem setX_pc : (s.setX v).pc = s.pc := rfl
@[simp] theorem setX_halted : (s.setX v).halted = s.halted := rfl
@[simp] theorem setX_seq : (s.setX v).seq = s.seq := rfl
@[simp] theorem setX_cyc : (s.setX v).cyc = s.cyc := rfl
@[simp] theorem setX_extra : (s.setX v).extra = s.extra := rfl
@[simp] theorem setX_pending : (s.setX v).pending = s.pending := rfl
@[simp] theorem setX_latch : (s.setX v).latch = s.latch := rfl
@[simp] theorem setX_bus : (s.setX v).bus = s.bus := rfl
@[simp] theorem setX_devices : (s.setX v).devices = s.devices := rfl
@[simp] theorem setX_mem : (s.setX v).mem = s.mem := rfl
@[simp] theorem setX_ticks : (s.setX v).ticks = s.ticks := rfl
@[simp] theorem setX_diags : (s.setX v).diags = s.diags := rfl

end

section
variable (s : State) (v : Byte)

@[simp] theorem setY_a : (s.setY v).a = s.a := rfl
@[simp] theorem setY_x : (s.setY v).x = s.x := rfl
@[simp] theorem setY_y : (s.setY v).y = v := rfl
@[simp] theorem setY_sp : (s.setY v).sp = s.sp := rfl
@[simp] theorem setY_p : (s.setY v).p = s.p := rfl
@[simp] theorem setY_pc : (s.setY v).pc = s.pc := rfl
@[simp] theorem setY_halted : (s.setY v).halted = s.halted := rfl
@[simp] theorem setY_seq : (s.setY v).seq = s.seq := rfl
@[simp] theorem setY_cyc : (s.setY v).cyc = s.cyc := rfl
@[simp] theorem setY_extra : (s.setY v).extra = s.extra := rfl
@[simp] theorem setY_pending : (s.setY v).pending = s.pending := rfl
@[simp] theorem setY_latch : (s.setY v).latch = s.latch := rfl
@[simp] theorem setY_bus : (s.setY v).bus = s.bus := rfl
@[simp] theorem setY_devices : (s.setY v).devices = s.devices := rfl
@[simp] theorem setY_mem : (s.setY v).mem = s.mem := rfl
@[simp] theorem setY_ticks : (s.setY v).ticks = s.ticks := rfl
@[simp] theorem setY_diags : (s.setY v).diags = s.diags := rfl

end

section
variable (s : State) (v : Byte)

@[simp] theorem setSp_a : (s.setSp v).a = s.a := rfl
@[simp] theorem setSp_x : (s.setSp v).x = s.x := rfl
@[simp] theorem setSp_y : (s.setSp v).y = s.y := rfl
@[simp] theorem setSp_sp : (s.setSp v).sp = v := rfl
@[simp] theorem setSp_p : (s.setSp v).p = s.p := rfl
@[simp] theorem setSp_pc : (s.setSp v).pc = s.pc := rfl
@[simp] theorem setSp_halted : (s.setSp v).halted = s.halted := rfl
@[simp] theorem setSp_seq : (s.setSp v).seq = s.seq := rfl
@[simp] theorem setSp_cyc : (s.setSp v).cyc = s.cyc := rfl
@[simp] theorem setSp_extra : (s.setSp v).extra = s.extra := rfl
@[simp] theorem setSp_pending : (s.setSp v).pending = s.pending := rfl
@[simp] theorem setSp_latch : (s.setSp v).latch = s.latch := rfl
@[simp] theorem setSp_bus : (s.setSp v).bus = s.bus := rfl
@[simp] theorem setSp_devices : (s.setSp v).devices = s.devices := rfl
@[simp] theorem setSp_mem : (s.setSp v).mem = s.mem := rfl
@[simp] theorem setSp_ticks : (s.setSp v).ticks = s.ticks := rfl
@[simp] theorem setSp_diags : (s.setSp v).diags = s.diags := rfl

end

section
variable (s : State) (v : Byte)

@[simp] theorem setP_a : (s.setP v).a = s.a := rfl
@[simp] theorem setP_x : (s.setP v).x = s.x := rfl
@[simp] theorem setP_y : (s.setP v).y = s.y := rfl
@[simp] theorem setP_sp : (s.setP v).sp = s.sp := rfl
@[simp] theorem setP_p : (s.setP v).p = v := rfl
@[simp] theorem setP_pc : (s.setP v).pc = s.pc := rfl
@[simp] theorem setP_halted : (s.setP v).halted = s.halted := rfl
@[simp] theorem setP_seq : (s.setP v).seq = s.seq := rfl
@[simp] theorem setP_cyc : (s.setP v).cyc = s.cyc := rfl
@[simp] theorem setP_extra : (s.setP v).extra = s.extra := rfl
@[simp] theorem setP_pending : (s.setP v).pending = s.pending := rfl
@[simp] theorem setP_latch : (s.setP v).latch = s.latch := rfl
@[simp] theorem setP_bus : (s.setP v).bus = s.bus := rfl
@[simp] theorem setP_devices : (s.setP v).devices = s.devices := rfl
@[simp] theorem setP_mem : (s.setP v).mem = s.mem := rfl
@[simp] theorem setP_ticks : (s.setP v).ticks = s.ticks := rfl
@[simp] theorem setP_diags : (s.setP v).diags = s.diags := rfl

end

section
variable (s : State) (v : Word)

@[simp] theorem setPc_a : (s.setPc v).a = s.a := rfl
@[simp] theorem setPc_x : (s.setPc v).x = s.x := rfl
@[simp] theorem setPc_y : (s.setPc v).y = s.y := rfl
@[simp] theorem setPc_sp : (s.setPc v).sp = s.sp := rfl
@[simp] theorem setPc_p : (s.setPc v).p = s.p := rfl
@[simp] theorem setPc_pc : (s.setPc v).pc = v := rfl
@[simp] theorem setPc_halted : (s.setPc v).halted = s.halted := rfl
@[simp] theorem setPc_seq : (s.setPc v).seq = s.seq := rfl
@[simp] theorem setPc_cyc : (s.setPc v).cyc = s.cyc := rfl
@[simp] theorem setPc_extra : (s.setPc v).extra = s.extra := rfl
@[simp] theorem setPc_pending : (s.setPc v).pending = s.pending := rfl
@[simp] theorem setPc_latch : (s.setPc v).latch = s.latch := rfl
@[simp] theorem setPc_bus : (s.setPc v).bus = s.bus := rfl
@[simp] theorem setPc_devices : (s.setPc v).devices = s.devices := rfl
@[simp] theorem setPc_mem : (s.setPc v).mem = s.mem := rfl
@[simp] theorem setPc_ticks : (s.setPc v).ticks = s.ticks := rfl
@[simp] theorem setPc_diags : (s.setPc v).diags = s.diags := rfl

end

section
variable (s : State) (v : Bool)

@[simp] theorem setHalted_a : (s.setHalted v).a = s.a := rfl
@[simp] theorem setHalted_x : (s.setHalted v).x = s.x := rfl
@[simp] theorem setHalted_y : (s.setHalted v).y = s.y := rfl
@[simp] theorem setHalted_sp : (s.setHalted v).sp = s.sp := rfl
@[simp] theorem setHalted_p : (s.setHalted v).p = s.p := rfl
@[simp] theorem setHalted_pc : (s.setHalted v).pc = s.pc := rfl
@[simp] theorem setHalted_halted : (s.setHalted v).halted = v := rfl
@[simp] theorem setHalted_seq : (s.setHalted v).seq = s.seq := rfl
@[simp] theorem setHalted_cyc : (s.setHalted v).cyc = s.cyc := rfl
@[simp] theorem setHalted_extra : (s.setHalted v).extra = s.extra := rfl
@[simp] theorem setHalted_pending : (s.setHalted v).pending = s.pending := rfl
@[simp] theorem setHalted_latch : (s.setHalted v).latch = s.latch := rfl
@[simp] theorem setHalted_bus : (s.setHalted v).bus = s.bus := rfl
@[simp] theorem setHalted_devices : (s.setHalted v).devices = s.devices := rfl
@[simp] theorem setHalted_mem : (s.setHalted v).mem = s.mem := rfl
@[simp] theorem setHalted_ticks : (s.setHalted v).ticks = s.ticks := rfl
@[simp] theorem setHalted_diags : (s.setHalted v).diags = s.diags := rfl

end

section
variable (s : State) (v : Seq)

@[simp] theorem setSeq_a : (s.setSeq v).a = s.a := rfl
@[simp] theorem setSeq_x : (s.setSeq v).x = s.x := rfl
@[simp] theorem setSeq_y : (s.setSeq v).y = s.y := rfl
@[simp] theorem setSeq_sp : (s.setSeq v).sp = s.sp := rfl
@[simp] theorem setSeq_p : (s.setSeq v).p = s.p := rfl
@[simp] theorem setSeq_pc : (s.setSeq v).pc = s.pc := rfl
@[simp] theorem setSeq_halted : (s.setSeq v).halted = s.halted := rfl
@[simp] theorem setSeq_seq : (s.setSeq v).seq = v := rfl
@[simp] theorem setSeq_cyc : (s.setSeq v).cyc = s.cyc := rfl
@[simp] theorem setSeq_extra : (s.setSeq v).extra = s.extra := rfl
@[simp] theorem setSeq_pending : (s.setSeq v).pending = s.pending := rfl
@[simp] theorem setSeq_latch : (s.setSeq v).latch = s.latch := rfl
@[simp] theorem setSeq_bus : (s.setSeq v).bus = s.bus := rfl
@[simp] theorem setSeq_devices : (s.setSeq v).devices = s.devices := rfl
@[simp] theorem setSeq_mem : (s.setSeq v).mem = s.mem := rfl
@[simp] theorem setSeq_ticks : (s.setSeq v).ticks = s.ticks := rfl
@[simp] theorem setSeq_diags : (s.setSeq v).diags = s.diags := rfl

end

section
variable (s : State) (v : Nat)

@[simp] theorem setCyc_a : (s.setCyc v).a = s.a := rfl
@[simp] theorem setCyc_x : (s.setCyc v).x = s.x := rfl
@[simp] theorem setCyc_y : (s.setCyc v).y = s.y := rfl
@[simp] theorem setCyc_sp : (s.setCyc v).sp = s.sp := rfl
@[simp] theorem setCyc_p : (s.setCyc v).p = s.p := rfl
@[simp] theorem setCyc_pc : (s.setCyc v).pc = s.pc := rfl
@[simp] theorem setCyc_halted : (s.setCyc v).halted = s.halted := rfl
@[simp] theorem setCyc_seq : (s.setCyc v).seq = s.seq := rfl
@[simp] theorem setCyc_cyc : (s.setCyc v).cyc = v := rfl
@[simp] theorem setCyc_extra : (s.setCyc v).extra = s.extra := rfl
@[simp] theorem setCyc_pending : (s.setCyc v).pending = s.pending := rfl
@[simp] theorem setCyc_latch : (s.setCyc v).latch = s.latch := rfl
@[simp] theorem setCyc_bus : (s.setCyc v).bus = s.bus := rfl
@[simp] theorem setCyc_devices : (s.setCyc v).devices = s.devices := rfl
@[simp] theorem setCyc_mem : (s.setCyc v).mem = s.mem := rfl
@[simp] theorem setCyc_ticks : (s.setCyc v).ticks = s.ticks := rfl
@[simp] theorem setCyc_diags : (s.setCyc v).diags = s.diags := rfl

end

section
variable (s : State) (v : Nat)

@[simp] theorem setExtra_a : (s.setExtra v).a = s.a := rfl
@[simp] theorem setExtra_x : (s.setExtra v).x = s.x := rfl
@[simp] theorem setExtra_y : (s.setExtra v).y = s.y := rfl
@[simp] theorem setExtra_sp : (s.setExtra v).sp = s.sp := rfl
@[simp] theorem setExtra_p : (s.setExtra v).p = s.p := rfl
@[simp] theorem setExtra_pc : (s.setExtra v).pc = s.pc := rfl
@[simp] theorem setExtra_halted : (s.setExtra v).halted = s.halted := rfl
@[simp] theorem setExtra_seq : (s.setExtra v).seq = s.seq := rfl
@[simp] theorem setExtra_cyc : (s.setExtra v).cyc = s.cyc := rfl
@[simp] theorem setExtra_extra : (s.setExtra v).extra = v := rfl
@[simp] theorem setExtra_pending : (s.setExtra v).pending = s.pending := rfl
@[simp] theorem setExtra_latch : (s.setExtra v).latch = s.latch := rfl
@[simp] theorem setExtra_bus : (s.setExtra v).bus = s.bus := rfl
@[simp] theorem setExtra_devices : (s.setExtra v).devices = s.devices := rfl
@[simp] theorem setExtra_mem : (s.setExtra v).mem = s.mem := rfl
@[simp] theorem setExtra_ticks : (s.setExtra v).ticks = s.ticks := rfl
@[simp] theorem setExtra_diags : (s.setExtra v).diags = s.diags := rfl

end

section
variable (s : State) (v : Bool)

@[simp] theorem setPending_a : (s.setPending v).a = s.a := rfl
@[simp] theorem setPending_x : (s.setPending v).x = s.x := rfl
@[simp] theorem setPending_y : (s.setPending v).y = s.y := rfl
@[simp] theorem setPending_sp : (s.setPending v).sp = s.sp := rfl
@[simp] theorem setPending_p : (s.setPending v).p = s.p := rfl
@[simp] theorem setPending_pc : (s.setPending v).pc = s.pc := rfl
@[simp] theorem setPending_halted : (s.setPending v).halted = s.halted := rfl
@[simp] theorem setPending_seq : (s.setPending v).seq = s.seq := rfl
@[simp] theorem setPending_cyc : (s.setPending v).cyc = s.cyc := rfl
@[simp] theorem setPending_extra : (s.setPending v).extra = s.extra := rfl
@[simp] theorem setPending_pending : (s.setPending v).pending = v := rfl
@[simp] theorem setPending_latch : (s.setPending v).latch = s.latch := rfl
@[simp] theorem setPending_bus : (s.setPending v).bus = s.bus := rfl
@[simp] theorem setPending_devices : (s.setPending v).devices = s.devices := rfl
@[simp] theorem setPending_mem : (s.setPending v).mem = s.mem := rfl
@[simp] theorem setPending_ticks : (s.setPending v).ticks = s.ticks := rfl
@[simp] theorem setPending_diags : (s.setPending v).diags = s.diags := rfl

end

section
variable (s : State) (v : Byte)

@[simp] theorem setLatch_a : (s.setLatch v).a = s.a := rfl
@[simp] theorem setLatch_x : (s.setLatch v).x = s.x := rfl
@[simp] theorem setLatch_y : (s.setLatch v).y = s.y := rfl
@[simp] theorem setLatch_sp : (s.setLatch v).sp = s.sp := rfl
@[simp] theorem setLatch_p : (s.setLatch v).p = s.p := rfl
@[simp] theorem setLatch_pc : (s.setLatch v).pc = s.pc := rfl
@[simp] theorem setLatch_halted : (s.setLatch v).halted = s.halted := rfl
@[simp] theorem setLatch_seq : (s.setLatch v).seq = s.seq := rfl
@[simp] theorem setLatch_cyc : (s.setLatch v).cyc = s.cyc := rfl
@[simp] theorem setLatch_extra : (s.setLatch v).extra = s.extra := rfl
@[simp] theorem setLatch_pending : (s.setLatch v).pending = s.pending := rfl
@[simp] theorem setLatch_latch : (s.setLatch v).latch = v := rfl
@[simp] theorem setLatch_bus : (s.setLatch v).bus = s.bus := rfl
@[simp] theorem setLatch_devices : (s.setLatch v).devices = s.devices := rfl
@[simp] theorem setLatch_mem : (s.setLatch v).mem = s.mem := rfl
@[simp] theorem setLatch_ticks : (s.setLatch v).ticks = s.ticks := rfl
@[simp] theorem setLatch_diags : (s.setLatch v).diags = s.diags := rfl

end

section
variable (s : State) (v : Bus)

@[simp] theorem setBus_a : (s.setBus v).a = s.a := rfl
@[simp] theorem setBus_x : (s.setBus v).x = s.x := rfl
@[simp] theorem setBus_y : (s.setBus v).y = s.y := rfl
@[simp] theorem setBus_sp : (s.setBus v).sp = s.sp := rfl
@[simp] theorem setBus_p : (s.setBus v).p = s.p := rfl
@[simp] theorem setBus_pc : (s.setBus v).pc = s.pc := rfl
@[simp] theorem setBus_halted : (s.setBus v).halted = s.halted := rfl
@[simp] theorem setBus_seq : (s.setBus v).seq = s.seq := rfl
@[simp] theorem setBus_cyc : (s.setBus v).cyc = s.cyc := rfl
@[simp] theorem setBus_extra : (s.setBus v).extra = s.extra := rfl
@[simp] theorem setBus_pending : (s.setBus v).pending = s.pending := rfl
@[simp] theorem setBus_latch : (s.setBus v).latch = s.latch := rfl
@[simp] theorem setBus_bus : (s.setBus v).bus = v := rfl
@[simp] theorem setBus_devices : (s.setBus v).devices = s.devices := rfl
@[simp] theorem setBus_mem : (s.setBus v).mem = s.mem := rfl
@[simp] theorem setBus_ticks : (s.setBus v).ticks = s.ticks := rfl
@[simp] theorem setBus_diags : (s.setBus v).diags = s.diags := rfl

end

section
variable (s : State) (v : List Window)

@[simp] theorem setDevices_a : (s.setDevices v).a = s.a := rfl
@[simp] theorem setDevices_x : (s.setDevices v).x = s.x := rfl
@[simp] theorem setDevices_y : (s.setDevices v).y = s.y := rfl
@[simp] theorem setDevices_sp : (s.setDevices v).sp = s.sp := rfl
@[simp] theorem setDevices_p : (s.setDevices v).p = s.p := rfl
@[simp] theorem setDevices_pc : (s.setDevices v).pc = s.pc := rfl
@[simp] theorem setDevices_halted : (s.setDevices v).halted = s.halted := rfl
@[simp] theorem setDevices_seq : (s.setDevices v).seq = s.seq := rfl
@[simp] theorem setDevices_cyc : (s.setDevices v).cyc = s.cyc := rfl
@[simp] theorem setDevices_extra : (s.setDevices v).extra = s.extra := rfl
@[simp] theorem setDevices_pending : (s.setDevices v).pending = s.pending := rfl
@[simp] theorem setDevices_latch : (s.setDevices v).latch = s.latch := rfl
@[simp] theorem setDevices_bus : (s.setDevices v).bus = s.bus := rfl
@[simp] theorem setDevices_devices : (s.setDevices v).devices = v := rfl
@[simp] theorem setDevices_mem : (s.setDevices v).mem = s.mem := rfl
@[simp] theorem setDevices_ticks : (s.setDevices v).ticks = s.ticks := rfl
@[simp] theorem setDevices_diags : (s.setDevices v).diags = s.diags := rfl

end

section
variable (s : State) (v : Memory)

@[simp] theorem setMem_a : (s.setMem v).a = s.a := rfl
@[simp] theorem setMem_x : (s.setMem v).x = s.x := rfl
@[simp] theorem setMem_y : (s.setMem v).y = s.y := rfl
@[simp] theorem setMem_sp : (s.setMem v).sp = s.sp := rfl
@[simp] theorem setMem_p : (s.setMem v).p = s.p := rfl
@[simp] theorem setMem_pc : (s.setMem v).pc = s.pc := rfl
@[simp] theorem setMem_halted : (s.setMem v).halted = s.halted := rfl
@[simp] theorem setMem_seq : (s.setMem v).seq = s.seq := rfl
@[simp] theorem setMem_cyc : (s.setMem v).cyc = s.cyc := rfl
@[simp] theorem setMem_extra : (s.setMem v).extra = s.extra := rfl
@[simp] theorem setMem_pending : (s.setMem v).pending = s.pending := rfl
@[simp] theorem setMem_latch : (s.setMem v).latch = s.latch := rfl
@[simp] theorem setMem_bus : (s.setMem v).bus = s.bus := rfl
@[simp] theorem setMem_devices : (s.setMem v).devices = s.devices := rfl
@[simp] theorem setMem_mem : (s.setMem v).mem = v := rfl
@[simp] theorem setMem_ticks : (s.setMem v).ticks = s.ticks := rfl
@[simp] theorem setMem_diags : (s.setMem v).diags = s.diags := rfl

end

section
variable (s : State) (v : Nat)

@[simp] theorem setTicks_a : (s.setTicks v).a = s.a := rfl
@[simp] theorem setTicks_x : (s.setTicks v).x = s.x := rfl
@[simp] theorem setTicks_y : (s.setTicks v).y = s.y := rfl
@[simp] theorem setTicks_sp : (s.setTicks v).sp = s.sp := rfl
@[simp] theorem setTicks_p : (s.setTicks v).p = s.p := rfl
@[simp] theorem setTicks_pc : (s.setTicks v).pc = s.pc := rfl
@[simp] theorem setTicks_halted : (s.setTicks v).halted = s.halted := rfl
@[simp] theorem setTicks_seq : (s.setTicks v).seq = s.seq := rfl
@[simp] theorem setTicks_cyc : (s.setTicks v).cyc = s.cyc := rfl
@[simp] theorem setTicks_extra : (s.setTicks v).extra = s.extra := rfl
@[simp] theorem setTicks_pending : (s.setTicks v).pending = s.pending := rfl
@[simp] theorem setTicks_latch : (s.setTicks v).latch = s.latch := rfl
@[simp] theorem setTicks_bus : (s.setTicks v).bus = s.bus := rfl
@[simp] theorem setTicks_devices : (s.setTicks v).devices = s.devices := rfl
@[simp] theorem setTicks_mem : (s.setTicks v).mem = s.mem := rfl
@[simp] theorem setTicks_ticks : (s.setTicks v).ticks = v := rfl
@[simp] theorem setTicks_diags : (s.setTicks v).diags = s.diags := rfl

end

section
variable (s : State) (v : List DiagEvent)

@[simp] theorem setDiags_a : (s.setDiags v).a = s.a := rfl
@[simp] theorem setDiags_x : (s.setDiags v).x = s.x := rfl
@[simp] theorem setDiags_y : (s.setDiags v).y = s.y := rfl
@[simp] theorem setDiags_sp : (s.setDiags v).sp = s.sp := rfl
@[simp] theorem setDiags_p : (s.setDiags v).p = s.p := rfl
@[simp] theorem setDiags_pc : (s.setDiags v).pc = s.pc := rfl
@[simp] theorem setDiags_halted : (s.setDiags v).halted = s.halted := rfl
@[simp] theorem setDiags_seq : (s.setDiags v).seq = s.seq := rfl
@[simp] theorem setDiags_cyc : (s.setDiags v).cyc = s.cyc := rfl
@[simp] theorem setDiags_extra : (s.setDiags v).extra = s.extra := rfl
@[simp] theorem setDiags_pending : (s.setDiags v).pending = s.pending := rfl
@[simp] theorem setDiags_latch : (s.setDiags v).latch = s.latch := rfl
@[simp] theorem setDiags_bus : (s.setDiags v).bus = s.bus := rfl
@[simp] theorem setDiags_devices : (s.setDiags v).devices = s.devices := rfl
@[simp] theorem setDiags_mem : (s.setDiags v).mem = s.mem := rfl
@[simp] theorem setDiags_ticks : (s.setDiags v).ticks = s.ticks := rfl
@[simp] theorem setDiags_diags : (s.setDiags v).diags = v := rfl

end

end Sys2Proof.Machine.State
end

