-- ==== Sys2Proof/Laws/Ops.lean ====
section
/-! SUPPORT. What each shared operation does, said once: the fields it keeps, and the ones it writes. -/

namespace Sys2Proof.Machine.State

section
variable (s : State)

/-! ## The device phase and the start of a tick -/

theorem devicePhase_read (h : s.bus.dir = .read) :
    s.devicePhase = s.setBus { s.bus with value := s.serve s.bus.value s.bus.addr } := by
  simp [devicePhase, h]

theorem devicePhase_write (h : s.bus.dir = .write) :
    s.devicePhase = if s.backed s.bus.addr then s.setMem (s.mem.write s.bus.addr s.bus.value) else s := by
  simp [devicePhase, h]

/-! ## The windows and the arrays are the only things a read depends on -/

@[simp] theorem setA_backed (v : Byte) (a : Word) : (s.setA v).backed a = s.backed a := rfl
@[simp] theorem setA_serve (v : Byte) (w : Byte) (a : Word) : (s.setA v).serve w a = s.serve w a := rfl
@[simp] theorem setX_backed (v : Byte) (a : Word) : (s.setX v).backed a = s.backed a := rfl
@[simp] theorem setX_serve (v : Byte) (w : Byte) (a : Word) : (s.setX v).serve w a = s.serve w a := rfl
@[simp] theorem setY_backed (v : Byte) (a : Word) : (s.setY v).backed a = s.backed a := rfl
@[simp] theorem setY_serve (v : Byte) (w : Byte) (a : Word) : (s.setY v).serve w a = s.serve w a := rfl
@[simp] theorem setSp_backed (v : Byte) (a : Word) : (s.setSp v).backed a = s.backed a := rfl
@[simp] theorem setSp_serve (v : Byte) (w : Byte) (a : Word) : (s.setSp v).serve w a = s.serve w a := rfl
@[simp] theorem setP_backed (v : Byte) (a : Word) : (s.setP v).backed a = s.backed a := rfl
@[simp] theorem setP_serve (v : Byte) (w : Byte) (a : Word) : (s.setP v).serve w a = s.serve w a := rfl
@[simp] theorem setPc_backed (v : Word) (a : Word) : (s.setPc v).backed a = s.backed a := rfl
@[simp] theorem setPc_serve (v : Word) (w : Byte) (a : Word) : (s.setPc v).serve w a = s.serve w a := rfl
@[simp] theorem setHalted_backed (v : Bool) (a : Word) : (s.setHalted v).backed a = s.backed a := rfl
@[simp] theorem setHalted_serve (v : Bool) (w : Byte) (a : Word) : (s.setHalted v).serve w a = s.serve w a := rfl
@[simp] theorem setSeq_backed (v : Seq) (a : Word) : (s.setSeq v).backed a = s.backed a := rfl
@[simp] theorem setSeq_serve (v : Seq) (w : Byte) (a : Word) : (s.setSeq v).serve w a = s.serve w a := rfl
@[simp] theorem setCyc_backed (v : Nat) (a : Word) : (s.setCyc v).backed a = s.backed a := rfl
@[simp] theorem setCyc_serve (v : Nat) (w : Byte) (a : Word) : (s.setCyc v).serve w a = s.serve w a := rfl
@[simp] theorem setExtra_backed (v : Nat) (a : Word) : (s.setExtra v).backed a = s.backed a := rfl
@[simp] theorem setExtra_serve (v : Nat) (w : Byte) (a : Word) : (s.setExtra v).serve w a = s.serve w a := rfl
@[simp] theorem setPending_backed (v : Bool) (a : Word) : (s.setPending v).backed a = s.backed a := rfl
@[simp] theorem setPending_serve (v : Bool) (w : Byte) (a : Word) : (s.setPending v).serve w a = s.serve w a := rfl
@[simp] theorem setLatch_backed (v : Byte) (a : Word) : (s.setLatch v).backed a = s.backed a := rfl
@[simp] theorem setLatch_serve (v : Byte) (w : Byte) (a : Word) : (s.setLatch v).serve w a = s.serve w a := rfl
@[simp] theorem setBus_backed (v : Bus) (a : Word) : (s.setBus v).backed a = s.backed a := rfl
@[simp] theorem setBus_serve (v : Bus) (w : Byte) (a : Word) : (s.setBus v).serve w a = s.serve w a := rfl
@[simp] theorem setTicks_backed (v : Nat) (a : Word) : (s.setTicks v).backed a = s.backed a := rfl
@[simp] theorem setTicks_serve (v : Nat) (w : Byte) (a : Word) : (s.setTicks v).serve w a = s.serve w a := rfl
@[simp] theorem setDiags_backed (v : List DiagEvent) (a : Word) : (s.setDiags v).backed a = s.backed a := rfl
@[simp] theorem setDiags_serve (v : List DiagEvent) (w : Byte) (a : Word) : (s.setDiags v).serve w a = s.serve w a := rfl

@[simp] theorem devicePhase_a : (s.devicePhase).a = s.a := by
  unfold devicePhase; split <;> (try split) <;> rfl
@[simp] theorem devicePhase_x : (s.devicePhase).x = s.x := by
  unfold devicePhase; split <;> (try split) <;> rfl
@[simp] theorem devicePhase_y : (s.devicePhase).y = s.y := by
  unfold devicePhase; split <;> (try split) <;> rfl
@[simp] theorem devicePhase_sp : (s.devicePhase).sp = s.sp := by
  unfold devicePhase; split <;> (try split) <;> rfl
@[simp] theorem devicePhase_p : (s.devicePhase).p = s.p := by
  unfold devicePhase; split <;> (try split) <;> rfl
@[simp] theorem devicePhase_pc : (s.devicePhase).pc = s.pc := by
  unfold devicePhase; split <;> (try split) <;> rfl
@[simp] theorem devicePhase_halted : (s.devicePhase).halted = s.halted := by
  unfold devicePhase; split <;> (try split) <;> rfl
@[simp] theorem devicePhase_seq : (s.devicePhase).seq = s.seq := by
  unfold devicePhase; split <;> (try split) <;> rfl
@[simp] theorem devicePhase_cyc : (s.devicePhase).cyc = s.cyc := by
  unfold devicePhase; split <;> (try split) <;> rfl
@[simp] theorem devicePhase_extra : (s.devicePhase).extra = s.extra := by
  unfold devicePhase; split <;> (try split) <;> rfl
@[simp] theorem devicePhase_pending : (s.devicePhase).pending = s.pending := by
  unfold devicePhase; split <;> (try split) <;> rfl
@[simp] theorem devicePhase_latch : (s.devicePhase).latch = s.latch := by
  unfold devicePhase; split <;> (try split) <;> rfl
@[simp] theorem devicePhase_devices : (s.devicePhase).devices = s.devices := by
  unfold devicePhase; split <;> (try split) <;> rfl
@[simp] theorem devicePhase_ticks : (s.devicePhase).ticks = s.ticks := by
  unfold devicePhase; split <;> (try split) <;> rfl
@[simp] theorem devicePhase_diags : (s.devicePhase).diags = s.diags := by
  unfold devicePhase; split <;> (try split) <;> rfl
@[simp] theorem devicePhase_bus_dir : s.devicePhase.bus.dir = s.bus.dir := by
  unfold devicePhase; split <;> (try split) <;> rfl
@[simp] theorem devicePhase_bus_addr : s.devicePhase.bus.addr = s.bus.addr := by
  unfold devicePhase; split <;> (try split) <;> rfl

/-- A held read leaves the arrays alone. -/
theorem devicePhase_mem_of_read (h : s.bus.dir = .read) : s.devicePhase.mem = s.mem := by
  simp [devicePhase, h]

@[simp] theorem beginTick_a : (s.beginTick).a = s.a := by simp [beginTick]
@[simp] theorem beginTick_x : (s.beginTick).x = s.x := by simp [beginTick]
@[simp] theorem beginTick_y : (s.beginTick).y = s.y := by simp [beginTick]
@[simp] theorem beginTick_sp : (s.beginTick).sp = s.sp := by simp [beginTick]
@[simp] theorem beginTick_p : (s.beginTick).p = s.p := by simp [beginTick]
@[simp] theorem beginTick_pc : (s.beginTick).pc = s.pc := by simp [beginTick]
@[simp] theorem beginTick_halted : (s.beginTick).halted = s.halted := by simp [beginTick]
@[simp] theorem beginTick_seq : (s.beginTick).seq = s.seq := by simp [beginTick]
@[simp] theorem beginTick_cyc : (s.beginTick).cyc = s.cyc := by simp [beginTick]
@[simp] theorem beginTick_extra : (s.beginTick).extra = s.extra := by simp [beginTick]
@[simp] theorem beginTick_pending : (s.beginTick).pending = s.pending := by simp [beginTick]
@[simp] theorem beginTick_latch : (s.beginTick).latch = s.latch := by simp [beginTick]
@[simp] theorem beginTick_devices : (s.beginTick).devices = s.devices := by simp [beginTick]
@[simp] theorem beginTick_diags : (s.beginTick).diags = s.diags := by simp [beginTick]
@[simp] theorem beginTick_ticks : s.beginTick.ticks = s.ticks + 1 := by simp [beginTick]
@[simp] theorem beginTick_bus_dir : s.beginTick.bus.dir = s.bus.dir := by simp [beginTick]
@[simp] theorem beginTick_bus_addr : s.beginTick.bus.addr = s.bus.addr := by simp [beginTick]
theorem beginTick_mem_of_read (h : s.bus.dir = .read) : s.beginTick.mem = s.mem := by
  simp [beginTick, devicePhase_mem_of_read, h]

/-! ## The capture -/

@[simp] theorem capture_a : (s.capture).a = s.a := by
  unfold capture; split <;> rfl
@[simp] theorem capture_x : (s.capture).x = s.x := by
  unfold capture; split <;> rfl
@[simp] theorem capture_y : (s.capture).y = s.y := by
  unfold capture; split <;> rfl
@[simp] theorem capture_sp : (s.capture).sp = s.sp := by
  unfold capture; split <;> rfl
@[simp] theorem capture_p : (s.capture).p = s.p := by
  unfold capture; split <;> rfl
@[simp] theorem capture_pc : (s.capture).pc = s.pc := by
  unfold capture; split <;> rfl
@[simp] theorem capture_halted : (s.capture).halted = s.halted := by
  unfold capture; split <;> rfl
@[simp] theorem capture_seq : (s.capture).seq = s.seq := by
  unfold capture; split <;> rfl
@[simp] theorem capture_cyc : (s.capture).cyc = s.cyc := by
  unfold capture; split <;> rfl
@[simp] theorem capture_extra : (s.capture).extra = s.extra := by
  unfold capture; split <;> rfl
@[simp] theorem capture_bus : (s.capture).bus = s.bus := by
  unfold capture; split <;> rfl
@[simp] theorem capture_devices : (s.capture).devices = s.devices := by
  unfold capture; split <;> rfl
@[simp] theorem capture_mem : (s.capture).mem = s.mem := by
  unfold capture; split <;> rfl
@[simp] theorem capture_ticks : (s.capture).ticks = s.ticks := by
  unfold capture; split <;> rfl
@[simp] theorem capture_diags : (s.capture).diags = s.diags := by
  unfold capture; split <;> rfl
@[simp] theorem capture_pending : s.capture.pending = false := by
  unfold capture; split <;> simp_all
theorem capture_latch : s.capture.latch = if s.pending then s.bus.value else s.latch := by
  unfold capture; split <;> simp_all

/-! ## From one suspension to the next -/

@[simp] theorem nextTick_a : (s.nextTick).a = s.a := by simp [nextTick]
@[simp] theorem nextTick_x : (s.nextTick).x = s.x := by simp [nextTick]
@[simp] theorem nextTick_y : (s.nextTick).y = s.y := by simp [nextTick]
@[simp] theorem nextTick_sp : (s.nextTick).sp = s.sp := by simp [nextTick]
@[simp] theorem nextTick_p : (s.nextTick).p = s.p := by simp [nextTick]
@[simp] theorem nextTick_pc : (s.nextTick).pc = s.pc := by simp [nextTick]
@[simp] theorem nextTick_halted : (s.nextTick).halted = s.halted := by simp [nextTick]
@[simp] theorem nextTick_seq : (s.nextTick).seq = s.seq := by simp [nextTick]
@[simp] theorem nextTick_extra : (s.nextTick).extra = s.extra := by simp [nextTick]
@[simp] theorem nextTick_devices : (s.nextTick).devices = s.devices := by simp [nextTick]
@[simp] theorem nextTick_diags : (s.nextTick).diags = s.diags := by simp [nextTick]
@[simp] theorem nextTick_cyc : s.nextTick.cyc = s.cyc + 1 := by simp [nextTick]
@[simp] theorem nextTick_ticks : s.nextTick.ticks = s.ticks + 1 := by simp [nextTick]
@[simp] theorem nextTick_pending : s.nextTick.pending = false := by simp [nextTick]
@[simp] theorem nextTick_bus_dir : s.nextTick.bus.dir = s.bus.dir := by simp [nextTick]
@[simp] theorem nextTick_bus_addr : s.nextTick.bus.addr = s.bus.addr := by simp [nextTick]
theorem nextTick_mem_of_read (h : s.bus.dir = .read) : s.nextTick.mem = s.mem := by
  simp [nextTick, beginTick_mem_of_read, h]

/-- A held write is applied again in the next device phase (20_memory.md R47). -/
theorem nextTick_mem_of_write (h : s.bus.dir = .write) :
    s.nextTick.mem = if s.backed s.bus.addr then s.mem.write s.bus.addr s.bus.value else s.mem := by
  simp only [nextTick, beginTick, devicePhase, setCyc_mem, capture_mem, setTicks_bus, h, setTicks_mem]
  by_cases hb : s.backed s.bus.addr
  · simp [hb, show (s.setTicks (s.ticks + 1)).backed s.bus.addr = true from hb]
  · simp [hb, show (s.setTicks (s.ticks + 1)).backed s.bus.addr = false from by simpa [backed] using hb]

/-- Whether an address is backed is a matter of the windows alone. -/
theorem backed_congr {t : State} (h : t.devices = s.devices) (a : Word) : t.backed a = s.backed a := by
  simp [backed, h]

/-- What a read finds is a matter of the windows and the arrays alone. -/
theorem serve_congr {t : State} (h : t.devices = s.devices) (hm : t.mem = s.mem) (v : Byte) (a : Word) :
    t.serve v a = s.serve v a := by
  simp [serve, backed, h, hm]

/-! ## Bus reads and writes of a sequence -/

/-- `MemRead(a, 1)`: the byte is the stored one, or the stale bus value where no device answers. -/
theorem memRead_eq (a : Word) : s.memRead a = (s.serve s.bus.value a,
    { s with bus := ⟨.read, a, s.serve s.bus.value a⟩, latch := s.serve s.bus.value a, pending := false,
             cyc := s.cyc + 1, ticks := s.ticks + 1 }) := by
  have h : ((s.assertRead a).setTicks (s.ticks + 1)).devicePhase =
      ((s.assertRead a).setTicks (s.ticks + 1)).setBus ⟨.read, a, s.serve s.bus.value a⟩ := by
    rw [devicePhase_read _ (by simp [assertRead])]
    simp [assertRead]
  simp only [memRead, nextTick, beginTick, show (s.assertRead a).ticks = s.ticks by simp [assertRead], h]
  simp [capture, assertRead, setBus, setTicks, setLatch, setPending, setCyc]

@[simp] theorem memRead_value (a : Word) : (s.memRead a).1 = s.serve s.bus.value a := by simp [memRead_eq]
@[simp] theorem memRead_a (a : Word) : (s.memRead a).2.a = s.a := by simp [memRead_eq]
@[simp] theorem memRead_x (a : Word) : (s.memRead a).2.x = s.x := by simp [memRead_eq]
@[simp] theorem memRead_y (a : Word) : (s.memRead a).2.y = s.y := by simp [memRead_eq]
@[simp] theorem memRead_sp (a : Word) : (s.memRead a).2.sp = s.sp := by simp [memRead_eq]
@[simp] theorem memRead_p (a : Word) : (s.memRead a).2.p = s.p := by simp [memRead_eq]
@[simp] theorem memRead_pc (a : Word) : (s.memRead a).2.pc = s.pc := by simp [memRead_eq]
@[simp] theorem memRead_halted (a : Word) : (s.memRead a).2.halted = s.halted := by simp [memRead_eq]
@[simp] theorem memRead_seq (a : Word) : (s.memRead a).2.seq = s.seq := by simp [memRead_eq]
@[simp] theorem memRead_extra (a : Word) : (s.memRead a).2.extra = s.extra := by simp [memRead_eq]
@[simp] theorem memRead_devices (a : Word) : (s.memRead a).2.devices = s.devices := by simp [memRead_eq]
@[simp] theorem memRead_mem (a : Word) : (s.memRead a).2.mem = s.mem := by simp [memRead_eq]
@[simp] theorem memRead_diags (a : Word) : (s.memRead a).2.diags = s.diags := by simp [memRead_eq]
@[simp] theorem memRead_latch (a : Word) : (s.memRead a).2.latch = s.serve s.bus.value a := by simp [memRead_eq]
@[simp] theorem memRead_pending (a : Word) : (s.memRead a).2.pending = false := by simp [memRead_eq]
@[simp] theorem memRead_cyc (a : Word) : (s.memRead a).2.cyc = s.cyc + 1 := by simp [memRead_eq]
@[simp] theorem memRead_ticks (a : Word) : (s.memRead a).2.ticks = s.ticks + 1 := by simp [memRead_eq]
@[simp] theorem memRead_bus (a : Word) : (s.memRead a).2.bus = ⟨.read, a, s.serve s.bus.value a⟩ := by simp [memRead_eq]
@[simp] theorem memRead_backed (a b : Word) : (s.memRead a).2.backed b = s.backed b := backed_congr s (by simp) b
@[simp] theorem memRead_serve (a b : Word) (v : Byte) : (s.memRead a).2.serve v b = s.serve v b :=
  serve_congr s (by simp) (by simp) v b

/-- `MemWrite(a, 1, v)`: the arrays take the byte where a device answers, and nothing else but the bus record, the
latch and the counters changes. -/
theorem memWrite_eq (a : Word) (v : Byte) : s.memWrite a v =
    { s with bus := ⟨.write, a, v⟩, mem := if s.backed a then s.mem.write a v else s.mem,
             latch := if s.pending then v else s.latch, pending := false, cyc := s.cyc + 1, ticks := s.ticks + 1 } := by
  have h : ((s.assertWrite a v).setTicks (s.ticks + 1)).devicePhase =
      if s.backed a then ((s.assertWrite a v).setTicks (s.ticks + 1)).setMem (s.mem.write a v)
      else (s.assertWrite a v).setTicks (s.ticks + 1) := by
    rw [devicePhase_write _ (by simp [assertWrite])]
    cases hb : s.backed a <;> simp [assertWrite, hb]
  simp only [memWrite, nextTick, beginTick, show (s.assertWrite a v).ticks = s.ticks by simp [assertWrite], h]
  cases hb : s.backed a <;> cases hp : s.pending <;>
    simp [capture, assertWrite, setBus, setTicks, setMem, setLatch, setPending, setCyc, hp]
@[simp] theorem memWrite_a (a : Word) (v : Byte) : (s.memWrite a v).a = s.a := by simp [memWrite_eq]
@[simp] theorem memWrite_x (a : Word) (v : Byte) : (s.memWrite a v).x = s.x := by simp [memWrite_eq]
@[simp] theorem memWrite_y (a : Word) (v : Byte) : (s.memWrite a v).y = s.y := by simp [memWrite_eq]
@[simp] theorem memWrite_sp (a : Word) (v : Byte) : (s.memWrite a v).sp = s.sp := by simp [memWrite_eq]
@[simp] theorem memWrite_p (a : Word) (v : Byte) : (s.memWrite a v).p = s.p := by simp [memWrite_eq]
@[simp] theorem memWrite_pc (a : Word) (v : Byte) : (s.memWrite a v).pc = s.pc := by simp [memWrite_eq]
@[simp] theorem memWrite_halted (a : Word) (v : Byte) : (s.memWrite a v).halted = s.halted := by simp [memWrite_eq]
@[simp] theorem memWrite_seq (a : Word) (v : Byte) : (s.memWrite a v).seq = s.seq := by simp [memWrite_eq]
@[simp] theorem memWrite_extra (a : Word) (v : Byte) : (s.memWrite a v).extra = s.extra := by simp [memWrite_eq]
@[simp] theorem memWrite_devices (a : Word) (v : Byte) : (s.memWrite a v).devices = s.devices := by simp [memWrite_eq]
@[simp] theorem memWrite_diags (a : Word) (v : Byte) : (s.memWrite a v).diags = s.diags := by simp [memWrite_eq]
@[simp] theorem memWrite_mem (a : Word) (v : Byte) :
    (s.memWrite a v).mem = if s.backed a then s.mem.write a v else s.mem := by simp [memWrite_eq]
@[simp] theorem memWrite_bus (a : Word) (v : Byte) : (s.memWrite a v).bus = ⟨.write, a, v⟩ := by simp [memWrite_eq]
@[simp] theorem memWrite_pending (a : Word) (v : Byte) : (s.memWrite a v).pending = false := by simp [memWrite_eq]
@[simp] theorem memWrite_cyc (a : Word) (v : Byte) : (s.memWrite a v).cyc = s.cyc + 1 := by simp [memWrite_eq]
@[simp] theorem memWrite_ticks (a : Word) (v : Byte) : (s.memWrite a v).ticks = s.ticks + 1 := by simp [memWrite_eq]
@[simp] theorem memWrite_backed (a b : Word) (v : Byte) : (s.memWrite a v).backed b = s.backed b :=
  backed_congr s (by simp) b

/-- `Fetch8()`: PC advances by one; the byte is the one the bus delivers at the old PC. -/
theorem fetch8_eq : s.fetch8 = (s.setPc (s.pc + 1)).memRead s.pc := rfl

/-- `Push(v)`: the byte goes to the address S had before the decrement. -/
theorem push_eq (v : Byte) : s.push v = (s.setSp (s.sp - 1)).memWrite (stackAddr s.sp) v := rfl

/-- `Pull()`: S is incremented first. -/
theorem pull_eq : s.pull = (s.setSp (s.sp + 1)).memRead (stackAddr (s.sp + 1)) := rfl


/-! ## Stalls and diagnostics -/

@[simp] theorem diag_a (k : Diagnostic) : (s.diag k).a = s.a := rfl
@[simp] theorem diag_x (k : Diagnostic) : (s.diag k).x = s.x := rfl
@[simp] theorem diag_y (k : Diagnostic) : (s.diag k).y = s.y := rfl
@[simp] theorem diag_sp (k : Diagnostic) : (s.diag k).sp = s.sp := rfl
@[simp] theorem diag_p (k : Diagnostic) : (s.diag k).p = s.p := rfl
@[simp] theorem diag_pc (k : Diagnostic) : (s.diag k).pc = s.pc := rfl
@[simp] theorem diag_halted (k : Diagnostic) : (s.diag k).halted = s.halted := rfl
@[simp] theorem diag_seq (k : Diagnostic) : (s.diag k).seq = s.seq := rfl
@[simp] theorem diag_cyc (k : Diagnostic) : (s.diag k).cyc = s.cyc := rfl
@[simp] theorem diag_extra (k : Diagnostic) : (s.diag k).extra = s.extra := rfl
@[simp] theorem diag_pending (k : Diagnostic) : (s.diag k).pending = s.pending := rfl
@[simp] theorem diag_latch (k : Diagnostic) : (s.diag k).latch = s.latch := rfl
@[simp] theorem diag_bus (k : Diagnostic) : (s.diag k).bus = s.bus := rfl
@[simp] theorem diag_devices (k : Diagnostic) : (s.diag k).devices = s.devices := rfl
@[simp] theorem diag_mem (k : Diagnostic) : (s.diag k).mem = s.mem := rfl
@[simp] theorem diag_ticks (k : Diagnostic) : (s.diag k).ticks = s.ticks := rfl
@[simp] theorem diag_diags (k : Diagnostic) : (s.diag k).diags = ⟨s.ticks, k⟩ :: s.diags := rfl
@[simp] theorem settle_a (n : Nat) : (s.settle n).a = s.a := by
  unfold settle; split <;> rfl
@[simp] theorem settle_x (n : Nat) : (s.settle n).x = s.x := by
  unfold settle; split <;> rfl
@[simp] theorem settle_y (n : Nat) : (s.settle n).y = s.y := by
  unfold settle; split <;> rfl
@[simp] theorem settle_sp (n : Nat) : (s.settle n).sp = s.sp := by
  unfold settle; split <;> rfl
@[simp] theorem settle_p (n : Nat) : (s.settle n).p = s.p := by
  unfold settle; split <;> rfl
@[simp] theorem settle_pc (n : Nat) : (s.settle n).pc = s.pc := by
  unfold settle; split <;> rfl
@[simp] theorem settle_halted (n : Nat) : (s.settle n).halted = s.halted := by
  unfold settle; split <;> rfl
@[simp] theorem settle_seq (n : Nat) : (s.settle n).seq = s.seq := by
  unfold settle; split <;> rfl
@[simp] theorem settle_cyc (n : Nat) : (s.settle n).cyc = s.cyc := by
  unfold settle; split <;> rfl
@[simp] theorem settle_pending (n : Nat) : (s.settle n).pending = s.pending := by
  unfold settle; split <;> rfl
@[simp] theorem settle_latch (n : Nat) : (s.settle n).latch = s.latch := by
  unfold settle; split <;> rfl
@[simp] theorem settle_bus (n : Nat) : (s.settle n).bus = s.bus := by
  unfold settle; split <;> rfl
@[simp] theorem settle_devices (n : Nat) : (s.settle n).devices = s.devices := by
  unfold settle; split <;> rfl
@[simp] theorem settle_mem (n : Nat) : (s.settle n).mem = s.mem := by
  unfold settle; split <;> rfl
@[simp] theorem settle_ticks (n : Nat) : (s.settle n).ticks = s.ticks := by
  unfold settle; split <;> rfl
@[simp] theorem settle_extra (n : Nat) : (s.settle n).extra = 0 := by unfold settle; split <;> rfl

/-- The underflow diagnostic is emitted exactly when the remaining count is negative (60_exceptions.md R232). -/
theorem settle_diags (n : Nat) : (s.settle n).diags =
    if s.remaining n < 0 then ⟨s.ticks, .cycleUnderflow (s.remaining n)⟩ :: s.diags else s.diags := by
  unfold settle; split <;> rfl

end

@[simp] theorem suspends_a (n : Nat) (s : State) : (suspends n s).a = s.a := by
  induction n generalizing s <;> simp_all [suspends]
@[simp] theorem suspends_x (n : Nat) (s : State) : (suspends n s).x = s.x := by
  induction n generalizing s <;> simp_all [suspends]
@[simp] theorem suspends_y (n : Nat) (s : State) : (suspends n s).y = s.y := by
  induction n generalizing s <;> simp_all [suspends]
@[simp] theorem suspends_sp (n : Nat) (s : State) : (suspends n s).sp = s.sp := by
  induction n generalizing s <;> simp_all [suspends]
@[simp] theorem suspends_p (n : Nat) (s : State) : (suspends n s).p = s.p := by
  induction n generalizing s <;> simp_all [suspends]
@[simp] theorem suspends_pc (n : Nat) (s : State) : (suspends n s).pc = s.pc := by
  induction n generalizing s <;> simp_all [suspends]
@[simp] theorem suspends_halted (n : Nat) (s : State) : (suspends n s).halted = s.halted := by
  induction n generalizing s <;> simp_all [suspends]
@[simp] theorem suspends_seq (n : Nat) (s : State) : (suspends n s).seq = s.seq := by
  induction n generalizing s <;> simp_all [suspends]
@[simp] theorem suspends_extra (n : Nat) (s : State) : (suspends n s).extra = s.extra := by
  induction n generalizing s <;> simp_all [suspends]
@[simp] theorem suspends_devices (n : Nat) (s : State) : (suspends n s).devices = s.devices := by
  induction n generalizing s <;> simp_all [suspends]
@[simp] theorem suspends_diags (n : Nat) (s : State) : (suspends n s).diags = s.diags := by
  induction n generalizing s <;> simp_all [suspends]
@[simp] theorem suspends_cyc (n : Nat) (s : State) : (suspends n s).cyc = s.cyc + n := by
  induction n generalizing s <;> simp_all [suspends]; omega
@[simp] theorem suspends_ticks (n : Nat) (s : State) : (suspends n s).ticks = s.ticks + n := by
  induction n generalizing s <;> simp_all [suspends]; omega
@[simp] theorem suspends_bus_dir (n : Nat) (s : State) : (suspends n s).bus.dir = s.bus.dir := by
  induction n generalizing s <;> simp_all [suspends]
@[simp] theorem suspends_bus_addr (n : Nat) (s : State) : (suspends n s).bus.addr = s.bus.addr := by
  induction n generalizing s <;> simp_all [suspends]
theorem suspends_pending (n : Nat) {s : State} (h : s.pending = false) : (suspends n s).pending = false := by
  induction n generalizing s <;> simp_all [suspends]

/-- Stall ticks over a held read leave the arrays alone. -/
theorem suspends_mem_of_read (n : Nat) {s : State} (h : s.bus.dir = .read) : (suspends n s).mem = s.mem := by
  induction n generalizing s with
  | zero => rfl
  | succ n ih => simp [suspends, ih (s := s.nextTick) (by simpa using h), nextTick_mem_of_read, h]

/-- A state in which a write has been applied and is still held on the bus. -/
def WriteHeld (s : State) (a : Word) (v : Byte) : Prop :=
  s.bus = ⟨.write, a, v⟩ ∧ (s.backed a = true → s.mem.write a v = s.mem)

/-- Stall ticks over a held write apply it again and change nothing (20_memory.md R47). -/
theorem suspends_mem_of_writeHeld (n : Nat) {s : State} {a : Word} {v : Byte} (h : s.WriteHeld a v) :
    (suspends n s).mem = s.mem := by
  induction n generalizing s with
  | zero => rfl
  | succ n ih =>
    obtain ⟨hb, hm⟩ := h
    have hmem : s.nextTick.mem = s.mem := by
      rw [nextTick_mem_of_write s (by simp [hb])]
      cases hk : s.backed a <;> simp_all
    have hheld : s.nextTick.WriteHeld a v := by
      refine ⟨?_, ?_⟩
      · simp [nextTick, beginTick, devicePhase, hb]
        split <;> simp [hb]
      · rw [backed_congr s (by simp), hmem]; exact hm
    simp [suspends, ih hheld, hmem]

theorem writeHeld_memWrite {s : State} (hm : s.mem.wf = true) (a : Word) (v : Byte) :
    (s.memWrite a v).WriteHeld a v := by
  refine ⟨by simp, ?_⟩
  intro hb
  simp at hb
  simp [hb, Memory.write_write hm]

section
variable (s : State) (n : Nat)

/-- `Stall(T)` is bookkeeping, then as many suspensions as remain. -/
theorem stall_eq : s.stall n = suspends (s.remaining n).toNat (s.settle n) := rfl

@[simp] theorem stall_a : (s.stall n).a = s.a := by simp [stall]
@[simp] theorem stall_x : (s.stall n).x = s.x := by simp [stall]
@[simp] theorem stall_y : (s.stall n).y = s.y := by simp [stall]
@[simp] theorem stall_sp : (s.stall n).sp = s.sp := by simp [stall]
@[simp] theorem stall_p : (s.stall n).p = s.p := by simp [stall]
@[simp] theorem stall_pc : (s.stall n).pc = s.pc := by simp [stall]
@[simp] theorem stall_halted : (s.stall n).halted = s.halted := by simp [stall]
@[simp] theorem stall_seq : (s.stall n).seq = s.seq := by simp [stall]
@[simp] theorem stall_devices : (s.stall n).devices = s.devices := by simp [stall]
@[simp] theorem stall_extra : (s.stall n).extra = 0 := by simp [stall]
@[simp] theorem stall_bus_dir : (s.stall n).bus.dir = s.bus.dir := by simp [stall]
@[simp] theorem stall_bus_addr : (s.stall n).bus.addr = s.bus.addr := by simp [stall]
@[simp] theorem stall_flag (f : Flag) : (s.stall n).flag f = s.flag f := by simp [flag]
theorem stall_ticks : (s.stall n).ticks = s.ticks + (s.remaining n).toNat := by simp [stall]
theorem stall_cyc : (s.stall n).cyc = s.cyc + (s.remaining n).toNat := by simp [stall]
theorem stall_diags : (s.stall n).diags =
    if s.remaining n < 0 then ⟨s.ticks, .cycleUnderflow (s.remaining n)⟩ :: s.diags else s.diags := by
  simp [stall, settle_diags]
theorem stall_pending {s : State} (h : s.pending = false) : (s.stall n).pending = false :=
  suspends_pending _ (by simpa using h)
theorem stall_mem_of_read {s : State} (h : s.bus.dir = .read) : (s.stall n).mem = s.mem := by
  rw [stall_eq, suspends_mem_of_read _ (by simpa using h), settle_mem]

/-- A store followed by its stall: the arrays hold the byte, where a device answers, and are otherwise unchanged. -/
theorem stall_mem_of_memWrite {s : State} (hm : s.mem.wf = true) (a : Word) (v : Byte) :
    ((s.memWrite a v).stall n).mem = if s.backed a then s.mem.write a v else s.mem := by
  obtain ⟨hb, hw⟩ := writeHeld_memWrite hm a v
  have h : ((s.memWrite a v).settle n).WriteHeld a v := by
    refine ⟨by simp, ?_⟩
    rw [backed_congr (s.memWrite a v) (by simp), settle_mem]
    exact hw
  rw [stall_eq, suspends_mem_of_writeHeld _ h, settle_mem, memWrite_mem]

/-- Stall ticks write at most the address a held write names. -/
theorem suspends_mem_other {a b : Word} (hb : b ≠ a) {s : State} (h : s.bus.dir = .write → s.bus.addr = a) :
    (suspends n s).mem.read b = s.mem.read b := by
  induction n generalizing s with
  | zero => rfl
  | succ n ih =>
    rw [suspends, ih (by simpa using h)]
    cases hd : s.bus.dir
    · rw [nextTick_mem_of_read _ hd]
    · rw [nextTick_mem_of_write _ hd, h hd]
      split
      · exact Memory.read_write_other hb _
      · rfl

theorem stall_mem_other {a b : Word} (hb : b ≠ a) {s : State} (h : s.bus.dir = .write → s.bus.addr = a) :
    (s.stall n).mem.read b = s.mem.read b := by
  rw [stall_eq, suspends_mem_other _ hb (by simpa using h), settle_mem]

theorem memWrite_mem_other {a b : Word} (hb : b ≠ a) (v : Byte) : (s.memWrite a v).mem.read b = s.mem.read b := by
  rw [memWrite_mem]
  split
  · exact Memory.read_write_other hb _
  · rfl

end

end Sys2Proof.Machine.State
end

