-- ==== Sys2Proof/Laws/Flags.lean ====
section
/-! SUPPORT. What each flag computation writes and keeps. -/

namespace Sys2Proof.Machine.State

/-- A flag write changes that flag and no other bit of P. -/
theorem setFlag_flag (s : State) (f g : Flag) (b : Bool) :
    (s.setFlag f b).flag g = if g = f then b else s.flag g := by
  cases f <;> cases g <;> cases b <;> simp [flag, setFlag, Flag.bit, Flag.mask]

/-- P is its eight flags. -/
theorem p_eq_of_flags {s t : State} (h : ∀ f, t.flag f = s.flag f) : t.p = s.p := by
  apply BitVec.eq_of_getLsbD_eq
  intro i hi
  have hcase : i = 0 ∨ i = 1 ∨ i = 2 ∨ i = 3 ∨ i = 4 ∨ i = 5 ∨ i = 6 ∨ i = 7 := by omega
  rcases hcase with rfl | rfl | rfl | rfl | rfl | rfl | rfl | rfl
  · exact h .c
  · exact h .z
  · exact h .i
  · exact h .d
  · exact h .b
  · exact h .u
  · exact h .v
  · exact h .n

/-- `SetNZ(v)` (10_state.md R21): N and Z, no other flag. -/
theorem setNZ_flag (s : State) (v : Byte) (f : Flag) :
    (s.setNZ v).flag f = if f = .n then v.msb else if f = .z then decide (v = 0) else s.flag f := by
  cases f <;> simp [setNZ, setFlag_flag]
  rfl

/-- PLP and RTI load every flag but B and U, which keep their value (10_state.md R18, R19). -/
theorem restoreStatus_flag (s : State) (v : Byte) (f : Flag) :
    (s.restoreStatus v).flag f = if f = .b then s.flag .b else if f = .u then true else v.getLsbD f.bit := by
  cases f <;> simp [restoreStatus, flag, status, Flag.bit]

@[simp] theorem setFlag_a (s : State) (f : Flag) (b : Bool) : (s.setFlag f b).a = s.a := by simp [setFlag]
@[simp] theorem setFlag_x (s : State) (f : Flag) (b : Bool) : (s.setFlag f b).x = s.x := by simp [setFlag]
@[simp] theorem setFlag_y (s : State) (f : Flag) (b : Bool) : (s.setFlag f b).y = s.y := by simp [setFlag]
@[simp] theorem setFlag_sp (s : State) (f : Flag) (b : Bool) : (s.setFlag f b).sp = s.sp := by simp [setFlag]
@[simp] theorem setFlag_pc (s : State) (f : Flag) (b : Bool) : (s.setFlag f b).pc = s.pc := by simp [setFlag]
@[simp] theorem setFlag_halted (s : State) (f : Flag) (b : Bool) : (s.setFlag f b).halted = s.halted := by simp [setFlag]
@[simp] theorem setFlag_seq (s : State) (f : Flag) (b : Bool) : (s.setFlag f b).seq = s.seq := by simp [setFlag]
@[simp] theorem setFlag_cyc (s : State) (f : Flag) (b : Bool) : (s.setFlag f b).cyc = s.cyc := by simp [setFlag]
@[simp] theorem setFlag_extra (s : State) (f : Flag) (b : Bool) : (s.setFlag f b).extra = s.extra := by simp [setFlag]
@[simp] theorem setFlag_pending (s : State) (f : Flag) (b : Bool) : (s.setFlag f b).pending = s.pending := by simp [setFlag]
@[simp] theorem setFlag_latch (s : State) (f : Flag) (b : Bool) : (s.setFlag f b).latch = s.latch := by simp [setFlag]
@[simp] theorem setFlag_bus (s : State) (f : Flag) (b : Bool) : (s.setFlag f b).bus = s.bus := by simp [setFlag]
@[simp] theorem setFlag_devices (s : State) (f : Flag) (b : Bool) : (s.setFlag f b).devices = s.devices := by simp [setFlag]
@[simp] theorem setFlag_mem (s : State) (f : Flag) (b : Bool) : (s.setFlag f b).mem = s.mem := by simp [setFlag]
@[simp] theorem setFlag_ticks (s : State) (f : Flag) (b : Bool) : (s.setFlag f b).ticks = s.ticks := by simp [setFlag]
@[simp] theorem setFlag_diags (s : State) (f : Flag) (b : Bool) : (s.setFlag f b).diags = s.diags := by simp [setFlag]

@[simp] theorem setNZ_a (s : State) (v : Byte) : (s.setNZ v).a = s.a := by simp [setNZ]
@[simp] theorem setNZ_x (s : State) (v : Byte) : (s.setNZ v).x = s.x := by simp [setNZ]
@[simp] theorem setNZ_y (s : State) (v : Byte) : (s.setNZ v).y = s.y := by simp [setNZ]
@[simp] theorem setNZ_sp (s : State) (v : Byte) : (s.setNZ v).sp = s.sp := by simp [setNZ]
@[simp] theorem setNZ_pc (s : State) (v : Byte) : (s.setNZ v).pc = s.pc := by simp [setNZ]
@[simp] theorem setNZ_halted (s : State) (v : Byte) : (s.setNZ v).halted = s.halted := by simp [setNZ]
@[simp] theorem setNZ_seq (s : State) (v : Byte) : (s.setNZ v).seq = s.seq := by simp [setNZ]
@[simp] theorem setNZ_cyc (s : State) (v : Byte) : (s.setNZ v).cyc = s.cyc := by simp [setNZ]
@[simp] theorem setNZ_extra (s : State) (v : Byte) : (s.setNZ v).extra = s.extra := by simp [setNZ]
@[simp] theorem setNZ_pending (s : State) (v : Byte) : (s.setNZ v).pending = s.pending := by simp [setNZ]
@[simp] theorem setNZ_latch (s : State) (v : Byte) : (s.setNZ v).latch = s.latch := by simp [setNZ]
@[simp] theorem setNZ_bus (s : State) (v : Byte) : (s.setNZ v).bus = s.bus := by simp [setNZ]
@[simp] theorem setNZ_devices (s : State) (v : Byte) : (s.setNZ v).devices = s.devices := by simp [setNZ]
@[simp] theorem setNZ_mem (s : State) (v : Byte) : (s.setNZ v).mem = s.mem := by simp [setNZ]
@[simp] theorem setNZ_ticks (s : State) (v : Byte) : (s.setNZ v).ticks = s.ticks := by simp [setNZ]
@[simp] theorem setNZ_diags (s : State) (v : Byte) : (s.setNZ v).diags = s.diags := by simp [setNZ]

@[simp] theorem restoreStatus_a (s : State) (v : Byte) : (s.restoreStatus v).a = s.a := by simp [restoreStatus]
@[simp] theorem restoreStatus_x (s : State) (v : Byte) : (s.restoreStatus v).x = s.x := by simp [restoreStatus]
@[simp] theorem restoreStatus_y (s : State) (v : Byte) : (s.restoreStatus v).y = s.y := by simp [restoreStatus]
@[simp] theorem restoreStatus_sp (s : State) (v : Byte) : (s.restoreStatus v).sp = s.sp := by simp [restoreStatus]
@[simp] theorem restoreStatus_pc (s : State) (v : Byte) : (s.restoreStatus v).pc = s.pc := by simp [restoreStatus]
@[simp] theorem restoreStatus_halted (s : State) (v : Byte) : (s.restoreStatus v).halted = s.halted := by simp [restoreStatus]
@[simp] theorem restoreStatus_seq (s : State) (v : Byte) : (s.restoreStatus v).seq = s.seq := by simp [restoreStatus]
@[simp] theorem restoreStatus_cyc (s : State) (v : Byte) : (s.restoreStatus v).cyc = s.cyc := by simp [restoreStatus]
@[simp] theorem restoreStatus_extra (s : State) (v : Byte) : (s.restoreStatus v).extra = s.extra := by simp [restoreStatus]
@[simp] theorem restoreStatus_pending (s : State) (v : Byte) : (s.restoreStatus v).pending = s.pending := by simp [restoreStatus]
@[simp] theorem restoreStatus_latch (s : State) (v : Byte) : (s.restoreStatus v).latch = s.latch := by simp [restoreStatus]
@[simp] theorem restoreStatus_bus (s : State) (v : Byte) : (s.restoreStatus v).bus = s.bus := by simp [restoreStatus]
@[simp] theorem restoreStatus_devices (s : State) (v : Byte) : (s.restoreStatus v).devices = s.devices := by simp [restoreStatus]
@[simp] theorem restoreStatus_mem (s : State) (v : Byte) : (s.restoreStatus v).mem = s.mem := by simp [restoreStatus]
@[simp] theorem restoreStatus_ticks (s : State) (v : Byte) : (s.restoreStatus v).ticks = s.ticks := by simp [restoreStatus]
@[simp] theorem restoreStatus_diags (s : State) (v : Byte) : (s.restoreStatus v).diags = s.diags := by simp [restoreStatus]

@[simp] theorem addWithCarry_x (s : State) (m : Byte) : (s.addWithCarry m).x = s.x := by simp [addWithCarry]
@[simp] theorem addWithCarry_y (s : State) (m : Byte) : (s.addWithCarry m).y = s.y := by simp [addWithCarry]
@[simp] theorem addWithCarry_sp (s : State) (m : Byte) : (s.addWithCarry m).sp = s.sp := by simp [addWithCarry]
@[simp] theorem addWithCarry_pc (s : State) (m : Byte) : (s.addWithCarry m).pc = s.pc := by simp [addWithCarry]
@[simp] theorem addWithCarry_halted (s : State) (m : Byte) : (s.addWithCarry m).halted = s.halted := by simp [addWithCarry]
@[simp] theorem addWithCarry_seq (s : State) (m : Byte) : (s.addWithCarry m).seq = s.seq := by simp [addWithCarry]
@[simp] theorem addWithCarry_cyc (s : State) (m : Byte) : (s.addWithCarry m).cyc = s.cyc := by simp [addWithCarry]
@[simp] theorem addWithCarry_extra (s : State) (m : Byte) : (s.addWithCarry m).extra = s.extra := by simp [addWithCarry]
@[simp] theorem addWithCarry_pending (s : State) (m : Byte) : (s.addWithCarry m).pending = s.pending := by simp [addWithCarry]
@[simp] theorem addWithCarry_latch (s : State) (m : Byte) : (s.addWithCarry m).latch = s.latch := by simp [addWithCarry]
@[simp] theorem addWithCarry_bus (s : State) (m : Byte) : (s.addWithCarry m).bus = s.bus := by simp [addWithCarry]
@[simp] theorem addWithCarry_devices (s : State) (m : Byte) : (s.addWithCarry m).devices = s.devices := by simp [addWithCarry]
@[simp] theorem addWithCarry_mem (s : State) (m : Byte) : (s.addWithCarry m).mem = s.mem := by simp [addWithCarry]
@[simp] theorem addWithCarry_ticks (s : State) (m : Byte) : (s.addWithCarry m).ticks = s.ticks := by simp [addWithCarry]
@[simp] theorem addWithCarry_diags (s : State) (m : Byte) : (s.addWithCarry m).diags = s.diags := by simp [addWithCarry]

@[simp] theorem compare_a (s : State) (r m : Byte) : (s.compare r m).a = s.a := by simp [compare]
@[simp] theorem compare_x (s : State) (r m : Byte) : (s.compare r m).x = s.x := by simp [compare]
@[simp] theorem compare_y (s : State) (r m : Byte) : (s.compare r m).y = s.y := by simp [compare]
@[simp] theorem compare_sp (s : State) (r m : Byte) : (s.compare r m).sp = s.sp := by simp [compare]
@[simp] theorem compare_pc (s : State) (r m : Byte) : (s.compare r m).pc = s.pc := by simp [compare]
@[simp] theorem compare_halted (s : State) (r m : Byte) : (s.compare r m).halted = s.halted := by simp [compare]
@[simp] theorem compare_seq (s : State) (r m : Byte) : (s.compare r m).seq = s.seq := by simp [compare]
@[simp] theorem compare_cyc (s : State) (r m : Byte) : (s.compare r m).cyc = s.cyc := by simp [compare]
@[simp] theorem compare_extra (s : State) (r m : Byte) : (s.compare r m).extra = s.extra := by simp [compare]
@[simp] theorem compare_pending (s : State) (r m : Byte) : (s.compare r m).pending = s.pending := by simp [compare]
@[simp] theorem compare_latch (s : State) (r m : Byte) : (s.compare r m).latch = s.latch := by simp [compare]
@[simp] theorem compare_bus (s : State) (r m : Byte) : (s.compare r m).bus = s.bus := by simp [compare]
@[simp] theorem compare_devices (s : State) (r m : Byte) : (s.compare r m).devices = s.devices := by simp [compare]
@[simp] theorem compare_mem (s : State) (r m : Byte) : (s.compare r m).mem = s.mem := by simp [compare]
@[simp] theorem compare_ticks (s : State) (r m : Byte) : (s.compare r m).ticks = s.ticks := by simp [compare]
@[simp] theorem compare_diags (s : State) (r m : Byte) : (s.compare r m).diags = s.diags := by simp [compare]

@[simp] theorem bitTest_a (s : State) (m : Byte) : (s.bitTest m).a = s.a := by simp [bitTest]
@[simp] theorem bitTest_x (s : State) (m : Byte) : (s.bitTest m).x = s.x := by simp [bitTest]
@[simp] theorem bitTest_y (s : State) (m : Byte) : (s.bitTest m).y = s.y := by simp [bitTest]
@[simp] theorem bitTest_sp (s : State) (m : Byte) : (s.bitTest m).sp = s.sp := by simp [bitTest]
@[simp] theorem bitTest_pc (s : State) (m : Byte) : (s.bitTest m).pc = s.pc := by simp [bitTest]
@[simp] theorem bitTest_halted (s : State) (m : Byte) : (s.bitTest m).halted = s.halted := by simp [bitTest]
@[simp] theorem bitTest_seq (s : State) (m : Byte) : (s.bitTest m).seq = s.seq := by simp [bitTest]
@[simp] theorem bitTest_cyc (s : State) (m : Byte) : (s.bitTest m).cyc = s.cyc := by simp [bitTest]
@[simp] theorem bitTest_extra (s : State) (m : Byte) : (s.bitTest m).extra = s.extra := by simp [bitTest]
@[simp] theorem bitTest_pending (s : State) (m : Byte) : (s.bitTest m).pending = s.pending := by simp [bitTest]
@[simp] theorem bitTest_latch (s : State) (m : Byte) : (s.bitTest m).latch = s.latch := by simp [bitTest]
@[simp] theorem bitTest_bus (s : State) (m : Byte) : (s.bitTest m).bus = s.bus := by simp [bitTest]
@[simp] theorem bitTest_devices (s : State) (m : Byte) : (s.bitTest m).devices = s.devices := by simp [bitTest]
@[simp] theorem bitTest_mem (s : State) (m : Byte) : (s.bitTest m).mem = s.mem := by simp [bitTest]
@[simp] theorem bitTest_ticks (s : State) (m : Byte) : (s.bitTest m).ticks = s.ticks := by simp [bitTest]
@[simp] theorem bitTest_diags (s : State) (m : Byte) : (s.bitTest m).diags = s.diags := by simp [bitTest]

@[simp] theorem setA_flag (s : State) (v : Byte) (f : Flag) : (s.setA v).flag f = s.flag f := rfl
@[simp] theorem setX_flag (s : State) (v : Byte) (f : Flag) : (s.setX v).flag f = s.flag f := rfl
@[simp] theorem setY_flag (s : State) (v : Byte) (f : Flag) : (s.setY v).flag f = s.flag f := rfl
@[simp] theorem setSp_flag (s : State) (v : Byte) (f : Flag) : (s.setSp v).flag f = s.flag f := rfl
@[simp] theorem setPc_flag (s : State) (v : Word) (f : Flag) : (s.setPc v).flag f = s.flag f := rfl
@[simp] theorem setHalted_flag (s : State) (v : Bool) (f : Flag) : (s.setHalted v).flag f = s.flag f := rfl
@[simp] theorem setSeq_flag (s : State) (v : Seq) (f : Flag) : (s.setSeq v).flag f = s.flag f := rfl
@[simp] theorem setCyc_flag (s : State) (v : Nat) (f : Flag) : (s.setCyc v).flag f = s.flag f := rfl
@[simp] theorem setExtra_flag (s : State) (v : Nat) (f : Flag) : (s.setExtra v).flag f = s.flag f := rfl
@[simp] theorem setPending_flag (s : State) (v : Bool) (f : Flag) : (s.setPending v).flag f = s.flag f := rfl
@[simp] theorem setLatch_flag (s : State) (v : Byte) (f : Flag) : (s.setLatch v).flag f = s.flag f := rfl
@[simp] theorem setBus_flag (s : State) (v : Bus) (f : Flag) : (s.setBus v).flag f = s.flag f := rfl
@[simp] theorem setDevices_flag (s : State) (v : List Window) (f : Flag) : (s.setDevices v).flag f = s.flag f := rfl
@[simp] theorem setMem_flag (s : State) (v : Memory) (f : Flag) : (s.setMem v).flag f = s.flag f := rfl
@[simp] theorem setTicks_flag (s : State) (v : Nat) (f : Flag) : (s.setTicks v).flag f = s.flag f := rfl
@[simp] theorem setDiags_flag (s : State) (v : List DiagEvent) (f : Flag) : (s.setDiags v).flag f = s.flag f := rfl

/-- ADC's and SBC's addition (44_arithmetic_logic.md R166): A and the four flags it writes. -/
@[simp] theorem addWithCarry_a (s : State) (m : Byte) : (s.addWithCarry m).a = BitVec.ofNat 8 (s.sum m) := by
  simp [addWithCarry]

theorem addWithCarry_flag (s : State) (m : Byte) (f : Flag) : (s.addWithCarry m).flag f =
    if f = .c then decide (s.sum m > 0xFF) else if f = .v then overflow s.a m (BitVec.ofNat 8 (s.sum m))
    else if f = .n then (BitVec.ofNat 8 (s.sum m) : Byte).msb else if f = .z then decide ((BitVec.ofNat 8 (s.sum m) : Byte) = 0)
    else s.flag f := by
  cases f <;> simp [addWithCarry, setNZ_flag, setFlag_flag]

/-- CMP's flags (44_arithmetic_logic.md R171). -/
theorem compare_flag (s : State) (r m : Byte) (f : Flag) : (s.compare r m).flag f =
    if f = .c then decide (r.toNat ≥ m.toNat) else if f = .z then decide (r = m) else if f = .n then (r - m).msb
    else s.flag f := by
  cases f <;> simp [compare, setFlag_flag]
  rfl

/-- BIT's flags (44_arithmetic_logic.md R174). -/
theorem bitTest_flag (s : State) (m : Byte) (f : Flag) : (s.bitTest m).flag f =
    if f = .z then decide (s.a &&& m = 0) else if f = .n then m.getLsbD 7 else if f = .v then m.getLsbD 6 else s.flag f := by
  cases f <;> simp [bitTest, setFlag_flag]
  rfl

/-- The carry as a number is 0 or 1. -/
theorem carry_le (s : State) : s.carry ≤ 1 := by
  unfold carry
  cases s.flag .c <;> simp

theorem and_0x80 (x : Byte) : ((x &&& 0x80) != 0) = x.msb := by revert x; decide

/-- The overflow test reads three sign bits (44_arithmetic_logic.md R166). -/
theorem overflow_eq (a m r : Byte) : overflow a m r = (decide (a.msb = m.msb) && decide (a.msb ≠ r.msb)) := by
  unfold overflow
  rw [and_0x80]
  simp
  cases a.msb <;> cases m.msb <;> cases r.msb <;> rfl

@[simp] theorem memRead_flag (s : State) (a : Word) (f : Flag) : (s.memRead a).2.flag f = s.flag f := by
  simp [flag]

@[simp] theorem memWrite_flag (s : State) (a : Word) (v : Byte) (f : Flag) : (s.memWrite a v).flag f = s.flag f := by
  simp [flag]

@[simp] theorem memRead_carry (s : State) (a : Word) : (s.memRead a).2.carry = s.carry := by simp [carry]

end Sys2Proof.Machine.State
end

