-- ==== Sys2Proof/Laws/Operands.lean ====
section
/-! SUPPORT. What an addressing-mode routine can change: PC, the sequencer's counters, the latch and the bus record, and
nothing else (41_addressing_modes.md R120). -/

namespace Sys2Proof.Machine

open State

/-- `t` differs from `s` in no register but PC, in no flag, in no byte of memory and in no diagnostic. -/
structure Untouched (s t : State) : Prop where
  a : t.a = s.a
  x : t.x = s.x
  y : t.y = s.y
  sp : t.sp = s.sp
  p : t.p = s.p
  halted : t.halted = s.halted
  seq : t.seq = s.seq
  devices : t.devices = s.devices
  mem : t.mem = s.mem
  diags : t.diags = s.diags

namespace Untouched

theorem refl (s : State) : Untouched s s := ⟨rfl, rfl, rfl, rfl, rfl, rfl, rfl, rfl, rfl, rfl⟩

theorem trans {r s t : State} (h : Untouched r s) (k : Untouched s t) : Untouched r t :=
  ⟨k.a.trans h.a, k.x.trans h.x, k.y.trans h.y, k.sp.trans h.sp, k.p.trans h.p, k.halted.trans h.halted,
    k.seq.trans h.seq, k.devices.trans h.devices, k.mem.trans h.mem, k.diags.trans h.diags⟩

theorem flag {s t : State} (h : Untouched s t) (f : Flag) : t.flag f = s.flag f := by simp [State.flag, h.p]

theorem memRead (s : State) (a : Word) : Untouched s (s.memRead a).2 := by constructor <;> simp

theorem fetchOperand (s : State) : Untouched s s.fetchOperand := by
  constructor <;> simp [State.fetchOperand, fetch8_eq]

theorem indexed (s : State) (b : Word) (i : Byte) : Untouched s (s.indexed b i).2 := by
  constructor <;> (simp only [State.indexed]; split <;> simp)

theorem setPc (s : State) (v : Word) : Untouched s (s.setPc v) := by constructor <;> simp

end Untouched

@[simp] theorem indexed_address (s : State) (b : Word) (i : Byte) : (s.indexed b i).1 = b + i.setWidth 16 := rfl

@[simp] theorem indexed_pc (s : State) (b : Word) (i : Byte) : (s.indexed b i).2.pc = s.pc := by
  simp only [State.indexed]; split <;> simp

@[simp] theorem indexed_cyc (s : State) (b : Word) (i : Byte) : (s.indexed b i).2.cyc = s.cyc := by
  simp only [State.indexed]; split <;> simp

@[simp] theorem indexed_ticks (s : State) (b : Word) (i : Byte) : (s.indexed b i).2.ticks = s.ticks := by
  simp only [State.indexed]; split <;> simp

@[simp] theorem indexed_bus (s : State) (b : Word) (i : Byte) : (s.indexed b i).2.bus = s.bus := by
  simp only [State.indexed]; split <;> simp

@[simp] theorem indexed_pending (s : State) (b : Word) (i : Byte) : (s.indexed b i).2.pending = s.pending := by
  simp only [State.indexed]; split <;> simp

/-- A page crossing counts one (41_addressing_modes.md R133). -/
theorem indexed_extra (s : State) (b : Word) (i : Byte) : (s.indexed b i).2.extra =
    if highByte (b + i.setWidth 16) ≠ highByte b then s.extra + 1 else s.extra := by
  simp only [State.indexed]; split <;> simp

@[simp] theorem fetchOperand_pc (s : State) : s.fetchOperand.pc = s.pc + 1 := by simp [fetchOperand, fetch8_eq]
@[simp] theorem fetchOperand_cyc (s : State) : s.fetchOperand.cyc = s.cyc + 1 := by simp [fetchOperand, fetch8_eq]
@[simp] theorem fetchOperand_ticks (s : State) : s.fetchOperand.ticks = s.ticks + 1 := by
  simp [fetchOperand, fetch8_eq]
@[simp] theorem fetchOperand_extra (s : State) : s.fetchOperand.extra = s.extra := by simp [fetchOperand, fetch8_eq]
@[simp] theorem fetchOperand_pending (s : State) : s.fetchOperand.pending = false := by simp [fetchOperand, fetch8_eq]
@[simp] theorem fetchOperand_bus (s : State) : s.fetchOperand.bus = ⟨.read, s.pc, s.serve s.bus.value s.pc⟩ := by
  simp [fetchOperand, fetch8_eq]
@[simp] theorem fetchOperand_latch (s : State) : s.fetchOperand.latch = s.serve s.bus.value s.pc := by
  simp [fetchOperand, fetch8_eq]

/-- What every addressing-mode routine that reads operand bytes does: registers, flags and memory untouched, PC past the
operand bytes, the bus left on a read, one suspension per read. -/
structure Fetched (operands reads : Nat) (s t : State) : Prop where
  untouched : Untouched s t
  pc : t.pc = s.pc + BitVec.ofNat 16 operands
  cyc : t.cyc = s.cyc + reads
  ticks : t.ticks = s.ticks + reads
  dir : t.bus.dir = .read
  pending : t.pending = false

section
variable (nn : Byte) (addr : Word) (offset : Int) (s : State)

open Untouched in
theorem fetched_one : Fetched 1 1 s s.fetchOperand :=
  ⟨fetchOperand s, by simp, by simp, by simp, by simp, by simp⟩

theorem add_one_one (w : Word) : w + 1 + 1 = w + BitVec.ofNat 16 2 := by
  rw [BitVec.add_assoc]; rfl

theorem fetched_two : Fetched 2 2 s s.fetchOperand.fetchOperand :=
  ⟨(Untouched.fetchOperand s).trans (Untouched.fetchOperand _), by
    rw [fetchOperand_pc, fetchOperand_pc]; exact add_one_one s.pc, by simp, by simp, by simp, by simp⟩

/-- A pointer read after the operand bytes keeps the form. -/
theorem Fetched.memRead {n k : Nat} {s t : State} (h : Fetched n k s t) (a : Word) :
    Fetched n (k + 1) s (t.memRead a).2 :=
  ⟨h.untouched.trans (Untouched.memRead t a), by simp [h.pc], by simp [h.cyc, Nat.add_assoc],
    by simp [h.ticks, Nat.add_assoc], by simp, by simp⟩

theorem Fetched.indexed {n k : Nat} {s t : State} (h : Fetched n k s t) (b : Word) (i : Byte) :
    Fetched n k s (t.indexed b i).2 :=
  ⟨h.untouched.trans (Untouched.indexed t b i), by simp [h.pc], by simp [h.cyc], by simp [h.ticks], by simp [h.dir],
    by simp [h.pending]⟩

theorem fetched_zeroPage : Fetched 1 1 s (zeroPage nn s).2 := fetched_one s
theorem fetched_zeroPageX : Fetched 1 1 s (zeroPageX nn s).2 := fetched_one s
theorem fetched_zeroPageY : Fetched 1 1 s (zeroPageY nn s).2 := fetched_one s
theorem fetched_absolute : Fetched 2 2 s (absolute addr s).2 := fetched_two s
theorem fetched_absoluteX : Fetched 2 2 s (absoluteX addr s).2 := (fetched_two s).indexed _ _
theorem fetched_absoluteY : Fetched 2 2 s (absoluteY addr s).2 := (fetched_two s).indexed _ _
theorem fetched_indexedIndirectX : Fetched 1 3 s (indexedIndirectX nn s).2 := ((fetched_one s).memRead _).memRead _
theorem fetched_indirectIndexedY : Fetched 1 3 s (indirectIndexedY nn s).2 :=
  (((fetched_one s).memRead _).memRead _).indexed _ _
theorem fetched_relative : Fetched 1 1 s (relative offset s).2 := fetched_one s
theorem fetched_absoluteIndirect : Fetched 2 4 s (absoluteIndirect addr s).2 :=
  ((fetched_two s).memRead _).memRead _

/-- The immediate operand's read, the operation's own (41_addressing_modes.md R121). -/
theorem fetched_immediateByte : Fetched 1 1 s (immediateByte nn s).2 :=
  ⟨(Untouched.setPc s _).trans (Untouched.memRead _ _), by simp [immediateByte, immediate],
    by simp [immediateByte, immediate], by simp [immediateByte, immediate], by simp [immediateByte, immediate],
    by simp [immediateByte, immediate]⟩

/-- The operand byte's read after a mode routine. -/
theorem fetched_byteAt {n k : Nat} {mode : State → Word × State} (h : Fetched n k s (mode s).2) :
    Fetched n (k + 1) s (byteAt mode s).2 := h.memRead _

end

end Sys2Proof.Machine
end

