-- ==== Sys2Proof/Laws/Classes.lean ====
section
/-! SUPPORT. Every instruction belongs to one of ten classes, each a shape of `Machine/Shapes.lean` or `Machine/Control.lean`
over the instruction's own mode routine; one lemma per class says what `exec` is for all of its members. -/

namespace Sys2Proof

open Sys2Proof.Machine

/-- The populated entry of the instruction table that an instruction's opcode byte selects. -/
def Instr.entry (i : Instr) : Option Entry := (encode i).head?.bind table

/-- The declared total of the instruction's entry. -/
def Instr.total (i : Instr) : Nat := (i.entry.map Entry.total).getD 0

theorem Instr.entry_eq (i : Instr) : i.entry = some ⟨i.mnemonic, i.mode, i.total⟩ := by cases i <;> rfl

namespace Mnemonic

/-- The instructions that read one operand byte and write registers or flags. -/
def isReader : Mnemonic → Bool
  | .lda | .ldx | .ldy | .adc | .sbc | .and | .ora | .eor | .cmp | .cpx | .cpy | .bit => true
  | _ => false

/-- The instructions that store a register. -/
def isStorer : Mnemonic → Bool
  | .sta | .stx | .sty => true
  | _ => false

/-- The read-modify-write instructions. -/
def isModifier : Mnemonic → Bool
  | .inc | .dec | .asl | .lsr | .rol | .ror => true
  | _ => false

/-- The instructions without an operand and without a bus access, but for BRK. -/
def isRegisterOnly : Mnemonic → Bool
  | .tsx | .txs | .tax | .tay | .txa | .tya | .inx | .iny | .dex | .dey
  | .clc | .sec | .cli | .sei | .clv | .cld | .sed | .nop => true
  | _ => false

/-- PHA and PHP. -/
def isPusher : Mnemonic → Bool
  | .pha | .php => true
  | _ => false

/-- PLA and PLP. -/
def isPuller : Mnemonic → Bool
  | .pla | .plp => true
  | _ => false

/-- JMP. -/
def isJump : Mnemonic → Bool
  | .jmp => true
  | _ => false

end Mnemonic

/-- The modes whose routine returns an address: all but implied, accumulator, and immediate, whose address is that of the
operand byte itself. -/
def Mode.hasAddress : Mode → Bool
  | .imp | .acc | .imm => false
  | _ => true

section
variable (i : Instr) (s : State)

theorem exec_reader (h : i.mnemonic.isReader = true) :
    exec i s = .next (readOp i.source (operate i.mnemonic) i.total s) := by
  cases i <;> first | exact absurd h Bool.false_ne_true | rfl

theorem exec_storer (h : i.mnemonic.isStorer = true) :
    exec i s = .next (storeOp i.address (sourceByte i.mnemonic) i.total s) := by
  cases i <;> first | exact absurd h Bool.false_ne_true | rfl

theorem exec_modifier (h : i.mnemonic.isModifier = true) (hm : i.mode ≠ .acc) :
    exec i s = .next (modifyOp i.address (modify i.mnemonic) i.total s) := by
  cases i <;> first | exact absurd h Bool.false_ne_true | exact absurd rfl hm | rfl

theorem exec_accumulator (hm : i.mode = .acc) :
    exec i s = .next (modifyAccOp (modify i.mnemonic) i.total s) := by
  cases i <;> first | (cases hm; done) | rfl

theorem exec_registerOnly (h : i.mnemonic.isRegisterOnly = true) (v : Byte) :
    exec i s = .next (impliedOp (operate i.mnemonic v) i.total s) := by
  cases i <;> first | exact absurd h Bool.false_ne_true | rfl

theorem exec_pusher (h : i.mnemonic.isPusher = true) :
    exec i s = .next (pushOp (sourceByte i.mnemonic) i.total s) := by
  cases i <;> first | exact absurd h Bool.false_ne_true | rfl

theorem exec_puller (h : i.mnemonic.isPuller = true) :
    exec i s = .next (pullOp (operate i.mnemonic) i.total s) := by
  cases i <;> first | exact absurd h Bool.false_ne_true | rfl

theorem exec_jump (h : i.mnemonic.isJump = true) : exec i s = .next (jumpOp i.address i.total s) := by
  cases i <;> first | exact absurd h Bool.false_ne_true | rfl

theorem exec_branch (hm : i.mode = .rel) :
    exec i s = .next (if taken i.mnemonic (i.address s).2 then
      ((if highByte (i.address s).1 ≠ highByte (i.address s).2.pc
        then (i.address s).2.setExtra ((i.address s).2.extra + 1) else (i.address s).2).setPc (i.address s).1).stall 3
      else (i.address s).2.stall 2) := by
  cases i <;> first | (cases hm; done) | rfl

/-- The mode routine of every instruction with an operand in memory, in a branch, or in a jump (41_addressing_modes.md
R120, R134): its reads are as many as `modeReads` says. -/
theorem fetched_address (h : i.mode.hasAddress = true) :
    Fetched i.mode.operandBytes (modeReads i.mode) s (i.address s).2 :=
  match i, h with
  | .ldaImm _, h | .ldxImm _, h | .ldyImm _, h | .adcImm _, h | .sbcImm _, h | .andImm _, h | .oraImm _, h |
    .eorImm _, h | .cmpImm _, h | .cpxImm _, h | .cpyImm _, h => absurd h Bool.false_ne_true
  | .ldaZp nn, _ | .ldxZp nn, _ | .ldyZp nn, _ | .staZp nn, _ | .stxZp nn, _ | .styZp nn, _ | .adcZp nn, _ |
    .sbcZp nn, _ | .andZp nn, _ | .oraZp nn, _ | .eorZp nn, _ | .cmpZp nn, _ | .cpxZp nn, _ | .cpyZp nn, _ |
    .bitZp nn, _ | .incZp nn, _ | .decZp nn, _ | .aslZp nn, _ | .lsrZp nn, _ | .rolZp nn, _ | .rorZp nn, _ =>
    fetched_zeroPage nn s
  | .ldaZpx nn, _ | .ldyZpx nn, _ | .staZpx nn, _ | .styZpx nn, _ | .adcZpx nn, _ | .sbcZpx nn, _ | .andZpx  nn, _
    | .oraZpx nn, _ | .eorZpx nn, _ | .cmpZpx nn, _ | .incZpx nn, _ | .decZpx nn, _ | .aslZpx nn, _ | .lsrZpx nn, _
    | .rolZpx nn, _ | .rorZpx nn, _ => fetched_zeroPageX nn s
  | .ldxZpy nn, _ | .stxZpy nn, _ => fetched_zeroPageY nn s
  | .ldaAbs addr, _ | .ldxAbs addr, _ | .ldyAbs addr, _ | .staAbs addr, _ | .stxAbs addr, _ | .styAbs addr, _ |
    .adcAbs addr, _ | .sbcAbs addr, _ | .andAbs addr, _ | .oraAbs addr, _ | .eorAbs addr, _ | .cmpAbs addr, _ |
    .cpxAbs addr, _ | .cpyAbs addr, _ | .bitAbs addr, _ | .incAbs addr, _ | .decAbs addr, _ | .aslAbs addr, _ |
    .lsrAbs addr, _ | .rolAbs addr, _ | .rorAbs addr, _ | .jmpAbs addr, _ | .jsr addr, _ => 
    fetched_absolute addr s
  | .ldaAbx addr, _ | .ldyAbx addr, _ | .staAbx addr, _ | .adcAbx addr, _ | .sbcAbx addr, _ | .andAbx addr, _ |
    .oraAbx addr, _ | .eorAbx addr, _ | .cmpAbx addr, _ | .incAbx addr, _ | .decAbx addr, _ | .aslAbx addr, _ |
    .lsrAbx addr, _ | .rolAbx addr, _ | .rorAbx addr, _ => fetched_absoluteX addr s
  | .ldaAby addr, _ | .ldxAby addr, _ | .staAby addr, _ | .adcAby addr, _ | .sbcAby addr, _ | .andAby addr, _ |
    .oraAby addr, _ | .eorAby addr, _ | .cmpAby addr, _ => fetched_absoluteY addr s
  | .ldaIzx nn, _ | .staIzx nn, _ | .adcIzx nn, _ | .sbcIzx nn, _ | .andIzx nn, _ | .oraIzx nn, _ | .eorIzx  nn, _
    | .cmpIzx nn, _ => fetched_indexedIndirectX nn s
  | .ldaIzy nn, _ | .staIzy nn, _ | .adcIzy nn, _ | .sbcIzy nn, _ | .andIzy nn, _ | .oraIzy nn, _ | .eorIzy  nn, _
    | .cmpIzy nn, _ => fetched_indirectIndexedY nn s
  | .bcc offset, _ | .bcs offset, _ | .beq offset, _ | .bne offset, _ | .bmi offset, _ | .bpl offset, _ | .bvc offset, _
    | .bvs offset, _ => fetched_relative offset s
  | .jmpInd addr, _ => fetched_absoluteIndirect addr s
  | .pha, h | .php, h | .pla, h | .plp, h | .tsx, h | .txs, h | .tax, h | .tay, h | .txa, h | .tya, h | .inx, h
    | .iny, h | .dex, h | .dey, h | .aslAcc, h | .lsrAcc, h | .rolAcc, h | .rorAcc, h | .rts, h | .rti, h |
    .clc, h | .sec, h | .cli, h | .sei, h | .clv, h | .cld, h | .sed, h | .nop, h | .brk, h => 
    absurd h Bool.false_ne_true

/-- Outside the immediate mode the operand byte is read at the effective address. -/
theorem source_eq (hm : i.mode ≠ .imm) : i.source s = byteAt i.address s := by
  cases i <;> first | exact absurd rfl hm | rfl

theorem accesses_reader (h : i.mnemonic.isReader = true) : accesses i = modeReads i.mode + 1 := by
  cases i <;> first | exact absurd h Bool.false_ne_true | rfl

theorem hasAddress_reader (h : i.mnemonic.isReader = true) (hm : i.mode ≠ .imm) : i.mode.hasAddress = true := by
  cases i <;> first | exact absurd h Bool.false_ne_true | exact absurd rfl hm | rfl

theorem fetched_immediate (h : i.mode = .imm) : Fetched 1 1 s (i.source s).2 := by
  cases i <;> first | (cases h; done) | exact fetched_immediateByte _ s

/-- The operand byte's read of every reading instruction. -/
theorem fetched_source (h : i.mnemonic.isReader = true) :
    Fetched i.mode.operandBytes (accesses i) s (i.source s).2 := by
  rw [accesses_reader i h]
  by_cases hm : i.mode = .imm
  · simpa [hm, modeReads, Mode.operandBytes] using fetched_immediate i s hm
  · rw [source_eq i s hm]
    exact fetched_byteAt s (fetched_address i s (hasAddress_reader i h hm))

end

end Sys2Proof
end

