-- ==== Sys2Proof/Laws/MemoryForm.lean ====
section
/-! SUPPORT. Every operation over memory keeps the canonical form, and the memory after power-on has it (20_memory.md
R49). -/

namespace Sys2Proof.Machine

theorem Memory.wf_ofCells (cells : List Host.Cell) : (Memory.ofCells cells).wf = true := by
  induction cells with
  | nil => rfl
  | cons c cells ih => exact Memory.wf_write ih _ _

namespace State

variable {s : State}

theorem wf_devicePhase (h : s.mem.wf = true) : s.devicePhase.mem.wf = true := by
  unfold devicePhase
  split
  · exact h
  · split
    · exact Memory.wf_write h _ _
    · exact h

theorem wf_beginTick (h : s.mem.wf = true) : s.beginTick.mem.wf = true := wf_devicePhase (s := s.setTicks _) h

theorem wf_capture (h : s.mem.wf = true) : s.capture.mem.wf = true := by simpa using h

theorem wf_nextTick (h : s.mem.wf = true) : s.nextTick.mem.wf = true := by
  simpa [nextTick] using wf_beginTick h

theorem wf_memRead (h : s.mem.wf = true) (a : Word) : (s.memRead a).2.mem.wf = true :=
  wf_nextTick (s := s.assertRead a) h

theorem wf_memWrite (h : s.mem.wf = true) (a : Word) (v : Byte) : (s.memWrite a v).mem.wf = true :=
  wf_nextTick (s := s.assertWrite a v) h

theorem wf_suspends (n : Nat) (h : s.mem.wf = true) : (suspends n s).mem.wf = true := by
  induction n generalizing s with
  | zero => exact h
  | succ n ih => exact ih (wf_nextTick h)

theorem wf_stall (n : Nat) (h : s.mem.wf = true) : (s.stall n).mem.wf = true :=
  wf_suspends _ (by simpa using h)

theorem wf_hostPoke (h : s.mem.wf = true) (a : Word) (v : Byte) : (s.hostPoke a v).mem.wf = true :=
  Memory.wf_write h a v

theorem wf_placeByte (h : s.mem.wf = true) (a : Word) (v : Byte) : (s.placeByte a v).mem.wf = true := by
  refine Memory.wf_write ?_ a v
  unfold ensureBacked
  split <;> exact h

theorem wf_placeBytes (bytes : List Byte) (h : s.mem.wf = true) (a : Word) : (placeBytes a bytes s).mem.wf = true := by
  induction bytes generalizing a s with
  | nil => exact h
  | cons b bytes ih => exact ih (wf_placeByte h a b) (a + 1)

theorem wf_withFetchWord (h : s.mem.wf = true) (nbits w : Nat) : (s.withFetchWord nbits w).mem.wf = true := by
  have hp := wf_placeBytes (bytesOfWord (w % 2 ^ nbits)) h (s.pc - 1)
  simpa [withFetchWord, placeInstr] using hp

theorem wf_reset : State.reset.mem.wf = true := rfl

end State

end Sys2Proof.Machine
end

