-- ==== Sys2Proof/Laws/HostAccess.lean ====
section
/-! SUPPORT. What construction can answer (70_reset_and_hazards.md R250, R256). -/

namespace Sys2Proof.Machine.State

theorem resetVectorBacked_iff (s : State) :
    s.resetVectorBacked = true ↔ s.backed 0xFFFC = true ∧ s.backed 0xFFFD = true := by
  simp [resetVectorBacked]

/-- Everything construction can do: the loaded machine at power-on, on a configuration the spec admits, or one of two
refusals, each on exactly the configurations it names. -/
theorem construct_cases (c : PowerOn) :
    (disjointWindows c.devices = true ∧ (loaded c).resetVectorBacked = true ∧ construct c = .next (loaded c)) ∨
      (disjointWindows c.devices = false ∧ construct c = .refused .overlappingWindows) ∨
      (disjointWindows c.devices = true ∧ (loaded c).resetVectorBacked = false ∧
        construct c = .refused .resetVectorUnbacked) := by
  cases hd : disjointWindows c.devices <;> cases hv : (loaded c).resetVectorBacked <;> simp [construct, hd, hv]

/-- A constructed machine has its vector backed and its memory in canonical form. -/
theorem constructed {c : PowerOn} {s : State} (h : construct c = .next s) :
    s = loaded c ∧ s.backed 0xFFFC = true ∧ s.backed 0xFFFD = true ∧ s.mem.wf = true := by
  obtain ⟨-, hv, he⟩ | ⟨-, he⟩ | ⟨-, -, he⟩ := construct_cases c <;> rw [he] at h <;> cases h
  exact ⟨rfl, ((resetVectorBacked_iff _).1 hv).1, ((resetVectorBacked_iff _).1 hv).2, Memory.wf_ofCells c.mem⟩

end Sys2Proof.Machine.State
end

