-- ==== Sys2Proof/Laws/PerInstr.lean ====
section
/-! SUPPORT. The per-instruction family `TableAgrees`: an instruction's encoding is as long as the instruction, and its opcode
byte selects the instruction-table entry with the instruction's mnemonic and mode (30_encoding.md R70, R76). -/

namespace Sys2Proof.Laws.TableAgrees

/-- The encoding's length and the entry its first byte selects agree with the instruction. -/
def Statement (i : Instr) : Prop :=
  (encode i).length = i.length ∧
    ∃ total, (encode i).head?.bind table = some ⟨i.mnemonic, i.mode, total⟩

theorem ldaImm (nn : Byte) : Statement (.ldaImm nn) := ⟨rfl, _, rfl⟩
theorem ldaZp (nn : Byte) : Statement (.ldaZp nn) := ⟨rfl, _, rfl⟩
theorem ldaZpx (nn : Byte) : Statement (.ldaZpx nn) := ⟨rfl, _, rfl⟩
theorem ldaAbs (addr : Word) : Statement (.ldaAbs addr) := ⟨rfl, _, rfl⟩
theorem ldaAbx (addr : Word) : Statement (.ldaAbx addr) := ⟨rfl, _, rfl⟩
theorem ldaAby (addr : Word) : Statement (.ldaAby addr) := ⟨rfl, _, rfl⟩
theorem ldaIzx (nn : Byte) : Statement (.ldaIzx nn) := ⟨rfl, _, rfl⟩
theorem ldaIzy (nn : Byte) : Statement (.ldaIzy nn) := ⟨rfl, _, rfl⟩
theorem ldxImm (nn : Byte) : Statement (.ldxImm nn) := ⟨rfl, _, rfl⟩
theorem ldxZp (nn : Byte) : Statement (.ldxZp nn) := ⟨rfl, _, rfl⟩
theorem ldxZpy (nn : Byte) : Statement (.ldxZpy nn) := ⟨rfl, _, rfl⟩
theorem ldxAbs (addr : Word) : Statement (.ldxAbs addr) := ⟨rfl, _, rfl⟩
theorem ldxAby (addr : Word) : Statement (.ldxAby addr) := ⟨rfl, _, rfl⟩
theorem ldyImm (nn : Byte) : Statement (.ldyImm nn) := ⟨rfl, _, rfl⟩
theorem ldyZp (nn : Byte) : Statement (.ldyZp nn) := ⟨rfl, _, rfl⟩
theorem ldyZpx (nn : Byte) : Statement (.ldyZpx nn) := ⟨rfl, _, rfl⟩
theorem ldyAbs (addr : Word) : Statement (.ldyAbs addr) := ⟨rfl, _, rfl⟩
theorem ldyAbx (addr : Word) : Statement (.ldyAbx addr) := ⟨rfl, _, rfl⟩
theorem staZp (nn : Byte) : Statement (.staZp nn) := ⟨rfl, _, rfl⟩
theorem staZpx (nn : Byte) : Statement (.staZpx nn) := ⟨rfl, _, rfl⟩
theorem staAbs (addr : Word) : Statement (.staAbs addr) := ⟨rfl, _, rfl⟩
theorem staAbx (addr : Word) : Statement (.staAbx addr) := ⟨rfl, _, rfl⟩
theorem staAby (addr : Word) : Statement (.staAby addr) := ⟨rfl, _, rfl⟩
theorem staIzx (nn : Byte) : Statement (.staIzx nn) := ⟨rfl, _, rfl⟩
theorem staIzy (nn : Byte) : Statement (.staIzy nn) := ⟨rfl, _, rfl⟩
theorem stxZp (nn : Byte) : Statement (.stxZp nn) := ⟨rfl, _, rfl⟩
theorem stxZpy (nn : Byte) : Statement (.stxZpy nn) := ⟨rfl, _, rfl⟩
theorem stxAbs (addr : Word) : Statement (.stxAbs addr) := ⟨rfl, _, rfl⟩
theorem styZp (nn : Byte) : Statement (.styZp nn) := ⟨rfl, _, rfl⟩
theorem styZpx (nn : Byte) : Statement (.styZpx nn) := ⟨rfl, _, rfl⟩
theorem styAbs (addr : Word) : Statement (.styAbs addr) := ⟨rfl, _, rfl⟩
theorem pha : Statement .pha := ⟨rfl, _, rfl⟩
theorem php : Statement .php := ⟨rfl, _, rfl⟩
theorem pla : Statement .pla := ⟨rfl, _, rfl⟩
theorem plp : Statement .plp := ⟨rfl, _, rfl⟩
theorem tsx : Statement .tsx := ⟨rfl, _, rfl⟩
theorem txs : Statement .txs := ⟨rfl, _, rfl⟩
theorem tax : Statement .tax := ⟨rfl, _, rfl⟩
theorem tay : Statement .tay := ⟨rfl, _, rfl⟩
theorem txa : Statement .txa := ⟨rfl, _, rfl⟩
theorem tya : Statement .tya := ⟨rfl, _, rfl⟩
theorem adcImm (nn : Byte) : Statement (.adcImm nn) := ⟨rfl, _, rfl⟩
theorem adcZp (nn : Byte) : Statement (.adcZp nn) := ⟨rfl, _, rfl⟩
theorem adcZpx (nn : Byte) : Statement (.adcZpx nn) := ⟨rfl, _, rfl⟩
theorem adcAbs (addr : Word) : Statement (.adcAbs addr) := ⟨rfl, _, rfl⟩
theorem adcAbx (addr : Word) : Statement (.adcAbx addr) := ⟨rfl, _, rfl⟩
theorem adcAby (addr : Word) : Statement (.adcAby addr) := ⟨rfl, _, rfl⟩
theorem adcIzx (nn : Byte) : Statement (.adcIzx nn) := ⟨rfl, _, rfl⟩
theorem adcIzy (nn : Byte) : Statement (.adcIzy nn) := ⟨rfl, _, rfl⟩
theorem sbcImm (nn : Byte) : Statement (.sbcImm nn) := ⟨rfl, _, rfl⟩
theorem sbcZp (nn : Byte) : Statement (.sbcZp nn) := ⟨rfl, _, rfl⟩
theorem sbcZpx (nn : Byte) : Statement (.sbcZpx nn) := ⟨rfl, _, rfl⟩
theorem sbcAbs (addr : Word) : Statement (.sbcAbs addr) := ⟨rfl, _, rfl⟩
theorem sbcAbx (addr : Word) : Statement (.sbcAbx addr) := ⟨rfl, _, rfl⟩
theorem sbcAby (addr : Word) : Statement (.sbcAby addr) := ⟨rfl, _, rfl⟩
theorem sbcIzx (nn : Byte) : Statement (.sbcIzx nn) := ⟨rfl, _, rfl⟩
theorem sbcIzy (nn : Byte) : Statement (.sbcIzy nn) := ⟨rfl, _, rfl⟩
theorem andImm (nn : Byte) : Statement (.andImm nn) := ⟨rfl, _, rfl⟩
theorem andZp (nn : Byte) : Statement (.andZp nn) := ⟨rfl, _, rfl⟩
theorem andZpx (nn : Byte) : Statement (.andZpx nn) := ⟨rfl, _, rfl⟩
theorem andAbs (addr : Word) : Statement (.andAbs addr) := ⟨rfl, _, rfl⟩
theorem andAbx (addr : Word) : Statement (.andAbx addr) := ⟨rfl, _, rfl⟩
theorem andAby (addr : Word) : Statement (.andAby addr) := ⟨rfl, _, rfl⟩
theorem andIzx (nn : Byte) : Statement (.andIzx nn) := ⟨rfl, _, rfl⟩
theorem andIzy (nn : Byte) : Statement (.andIzy nn) := ⟨rfl, _, rfl⟩
theorem oraImm (nn : Byte) : Statement (.oraImm nn) := ⟨rfl, _, rfl⟩
theorem oraZp (nn : Byte) : Statement (.oraZp nn) := ⟨rfl, _, rfl⟩
theorem oraZpx (nn : Byte) : Statement (.oraZpx nn) := ⟨rfl, _, rfl⟩
theorem oraAbs (addr : Word) : Statement (.oraAbs addr) := ⟨rfl, _, rfl⟩
theorem oraAbx (addr : Word) : Statement (.oraAbx addr) := ⟨rfl, _, rfl⟩
theorem oraAby (addr : Word) : Statement (.oraAby addr) := ⟨rfl, _, rfl⟩
theorem oraIzx (nn : Byte) : Statement (.oraIzx nn) := ⟨rfl, _, rfl⟩
theorem oraIzy (nn : Byte) : Statement (.oraIzy nn) := ⟨rfl, _, rfl⟩
theorem eorImm (nn : Byte) : Statement (.eorImm nn) := ⟨rfl, _, rfl⟩
theorem eorZp (nn : Byte) : Statement (.eorZp nn) := ⟨rfl, _, rfl⟩
theorem eorZpx (nn : Byte) : Statement (.eorZpx nn) := ⟨rfl, _, rfl⟩
theorem eorAbs (addr : Word) : Statement (.eorAbs addr) := ⟨rfl, _, rfl⟩
theorem eorAbx (addr : Word) : Statement (.eorAbx addr) := ⟨rfl, _, rfl⟩
theorem eorAby (addr : Word) : Statement (.eorAby addr) := ⟨rfl, _, rfl⟩
theorem eorIzx (nn : Byte) : Statement (.eorIzx nn) := ⟨rfl, _, rfl⟩
theorem eorIzy (nn : Byte) : Statement (.eorIzy nn) := ⟨rfl, _, rfl⟩
theorem cmpImm (nn : Byte) : Statement (.cmpImm nn) := ⟨rfl, _, rfl⟩
theorem cmpZp (nn : Byte) : Statement (.cmpZp nn) := ⟨rfl, _, rfl⟩
theorem cmpZpx (nn : Byte) : Statement (.cmpZpx nn) := ⟨rfl, _, rfl⟩
theorem cmpAbs (addr : Word) : Statement (.cmpAbs addr) := ⟨rfl, _, rfl⟩
theorem cmpAbx (addr : Word) : Statement (.cmpAbx addr) := ⟨rfl, _, rfl⟩
theorem cmpAby (addr : Word) : Statement (.cmpAby addr) := ⟨rfl, _, rfl⟩
theorem cmpIzx (nn : Byte) : Statement (.cmpIzx nn) := ⟨rfl, _, rfl⟩
theorem cmpIzy (nn : Byte) : Statement (.cmpIzy nn) := ⟨rfl, _, rfl⟩
theorem cpxImm (nn : Byte) : Statement (.cpxImm nn) := ⟨rfl, _, rfl⟩
theorem cpxZp (nn : Byte) : Statement (.cpxZp nn) := ⟨rfl, _, rfl⟩
theorem cpxAbs (addr : Word) : Statement (.cpxAbs addr) := ⟨rfl, _, rfl⟩
theorem cpyImm (nn : Byte) : Statement (.cpyImm nn) := ⟨rfl, _, rfl⟩
theorem cpyZp (nn : Byte) : Statement (.cpyZp nn) := ⟨rfl, _, rfl⟩
theorem cpyAbs (addr : Word) : Statement (.cpyAbs addr) := ⟨rfl, _, rfl⟩
theorem bitZp (nn : Byte) : Statement (.bitZp nn) := ⟨rfl, _, rfl⟩
theorem bitAbs (addr : Word) : Statement (.bitAbs addr) := ⟨rfl, _, rfl⟩
theorem incZp (nn : Byte) : Statement (.incZp nn) := ⟨rfl, _, rfl⟩
theorem incZpx (nn : Byte) : Statement (.incZpx nn) := ⟨rfl, _, rfl⟩
theorem incAbs (addr : Word) : Statement (.incAbs addr) := ⟨rfl, _, rfl⟩
theorem incAbx (addr : Word) : Statement (.incAbx addr) := ⟨rfl, _, rfl⟩
theorem decZp (nn : Byte) : Statement (.decZp nn) := ⟨rfl, _, rfl⟩
theorem decZpx (nn : Byte) : Statement (.decZpx nn) := ⟨rfl, _, rfl⟩
theorem decAbs (addr : Word) : Statement (.decAbs addr) := ⟨rfl, _, rfl⟩
theorem decAbx (addr : Word) : Statement (.decAbx addr) := ⟨rfl, _, rfl⟩
theorem inx : Statement .inx := ⟨rfl, _, rfl⟩
theorem iny : Statement .iny := ⟨rfl, _, rfl⟩
theorem dex : Statement .dex := ⟨rfl, _, rfl⟩
theorem dey : Statement .dey := ⟨rfl, _, rfl⟩
theorem aslAcc : Statement .aslAcc := ⟨rfl, _, rfl⟩
theorem aslZp (nn : Byte) : Statement (.aslZp nn) := ⟨rfl, _, rfl⟩
theorem aslZpx (nn : Byte) : Statement (.aslZpx nn) := ⟨rfl, _, rfl⟩
theorem aslAbs (addr : Word) : Statement (.aslAbs addr) := ⟨rfl, _, rfl⟩
theorem aslAbx (addr : Word) : Statement (.aslAbx addr) := ⟨rfl, _, rfl⟩
theorem lsrAcc : Statement .lsrAcc := ⟨rfl, _, rfl⟩
theorem lsrZp (nn : Byte) : Statement (.lsrZp nn) := ⟨rfl, _, rfl⟩
theorem lsrZpx (nn : Byte) : Statement (.lsrZpx nn) := ⟨rfl, _, rfl⟩
theorem lsrAbs (addr : Word) : Statement (.lsrAbs addr) := ⟨rfl, _, rfl⟩
theorem lsrAbx (addr : Word) : Statement (.lsrAbx addr) := ⟨rfl, _, rfl⟩
theorem rolAcc : Statement .rolAcc := ⟨rfl, _, rfl⟩
theorem rolZp (nn : Byte) : Statement (.rolZp nn) := ⟨rfl, _, rfl⟩
theorem rolZpx (nn : Byte) : Statement (.rolZpx nn) := ⟨rfl, _, rfl⟩
theorem rolAbs (addr : Word) : Statement (.rolAbs addr) := ⟨rfl, _, rfl⟩
theorem rolAbx (addr : Word) : Statement (.rolAbx addr) := ⟨rfl, _, rfl⟩
theorem rorAcc : Statement .rorAcc := ⟨rfl, _, rfl⟩
theorem rorZp (nn : Byte) : Statement (.rorZp nn) := ⟨rfl, _, rfl⟩
theorem rorZpx (nn : Byte) : Statement (.rorZpx nn) := ⟨rfl, _, rfl⟩
theorem rorAbs (addr : Word) : Statement (.rorAbs addr) := ⟨rfl, _, rfl⟩
theorem rorAbx (addr : Word) : Statement (.rorAbx addr) := ⟨rfl, _, rfl⟩
theorem bcc (offset : Int) : Statement (.bcc offset) := ⟨rfl, _, rfl⟩
theorem bcs (offset : Int) : Statement (.bcs offset) := ⟨rfl, _, rfl⟩
theorem beq (offset : Int) : Statement (.beq offset) := ⟨rfl, _, rfl⟩
theorem bne (offset : Int) : Statement (.bne offset) := ⟨rfl, _, rfl⟩
theorem bmi (offset : Int) : Statement (.bmi offset) := ⟨rfl, _, rfl⟩
theorem bpl (offset : Int) : Statement (.bpl offset) := ⟨rfl, _, rfl⟩
theorem bvc (offset : Int) : Statement (.bvc offset) := ⟨rfl, _, rfl⟩
theorem bvs (offset : Int) : Statement (.bvs offset) := ⟨rfl, _, rfl⟩
theorem jmpAbs (addr : Word) : Statement (.jmpAbs addr) := ⟨rfl, _, rfl⟩
theorem jmpInd (addr : Word) : Statement (.jmpInd addr) := ⟨rfl, _, rfl⟩
theorem jsr (addr : Word) : Statement (.jsr addr) := ⟨rfl, _, rfl⟩
theorem rts : Statement .rts := ⟨rfl, _, rfl⟩
theorem rti : Statement .rti := ⟨rfl, _, rfl⟩
theorem clc : Statement .clc := ⟨rfl, _, rfl⟩
theorem sec : Statement .sec := ⟨rfl, _, rfl⟩
theorem cli : Statement .cli := ⟨rfl, _, rfl⟩
theorem sei : Statement .sei := ⟨rfl, _, rfl⟩
theorem clv : Statement .clv := ⟨rfl, _, rfl⟩
theorem cld : Statement .cld := ⟨rfl, _, rfl⟩
theorem sed : Statement .sed := ⟨rfl, _, rfl⟩
theorem nop : Statement .nop := ⟨rfl, _, rfl⟩
theorem brk : Statement .brk := ⟨rfl, _, rfl⟩

end Sys2Proof.Laws.TableAgrees
end

