-- ==== Sys2Proof/Laws/Sequencer.lean ====
section
/-! SUPPORT. The tick-level sequencer against the straight-line reading of its micro-steps: `direct` runs the same list with
every suspension taken in place, and `runs` says that ticking a suspended sequence to its end gives what `direct` gives. -/

namespace Sys2Proof.Machine

open State

/-- A sequence run without stopping: where `advance` suspends, the next tick is taken in place. -/
def direct : List Micro → Tmp → State → State
  | [], _, s => s
  | .immediate :: rest, t, s => direct rest { t with ea := s.pc } (s.setPc (s.pc + 1))
  | .fetch8 :: rest, t, s => direct rest t s.fetchOperand
  | .keepLow :: rest, t, s => direct rest { t with lo := s.latch } s
  | .zeroPage :: rest, t, s => direct rest { t with ea := s.latch.setWidth 16 } s
  | .zeroPageX :: rest, t, s => direct rest { t with ea := (s.latch + s.x).setWidth 16 } s
  | .zeroPageY :: rest, t, s => direct rest { t with ea := (s.latch + s.y).setWidth 16 } s
  | .absolute :: rest, t, s => direct rest { t with ea := wordOf s.latch t.lo } s
  | .absoluteX :: rest, t, s =>
    let r := s.indexed (wordOf s.latch t.lo) s.x
    direct rest { t with ea := r.1 } r.2
  | .absoluteY :: rest, t, s =>
    let r := s.indexed (wordOf s.latch t.lo) s.y
    direct rest { t with ea := r.1 } r.2
  | .pointerZp :: rest, t, s => direct rest { t with ptr := s.latch.setWidth 16 } s
  | .pointerZpX :: rest, t, s => direct rest { t with ptr := (s.latch + s.x).setWidth 16 } s
  | .pointerAbs :: rest, t, s => direct rest { t with ptr := wordOf s.latch t.lo } s
  | .readPtr :: rest, t, s => direct rest t (s.memRead t.ptr).2
  | .readPtrNext :: rest, t, s => direct rest t (s.memRead (nextInPage t.ptr)).2
  | .relative :: rest, t, s => direct rest { t with ea := s.pc + s.latch.signExtend 16 } s
  | .read :: rest, t, s => direct rest t (s.memRead t.ea).2
  | .write :: rest, t, s => direct rest t (s.memWrite t.ea t.val)
  | .operate op :: rest, t, s => direct rest t (operate op s.latch s)
  | .source op :: rest, t, s => direct rest { t with val := sourceByte op s } s
  | .modify op :: rest, t, s => direct rest { t with val := (modify op s.latch s).1 } (modify op s.latch s).2
  | .modifyA op :: rest, t, s => direct rest t ((modify op s.a s).2.setA (modify op s.a s).1)
  | .push :: rest, t, s => direct rest t (s.push t.val)
  | .pull :: rest, t, s => direct rest t s.pull.2
  | .returnHigh :: rest, t, s => direct rest { t with val := highByte (s.pc - 1) } s
  | .returnLow :: rest, t, s => direct rest { t with val := lowByte (s.pc - 1) } s
  | .jump :: rest, t, s => direct rest t (s.setPc t.ea)
  | .resume plus :: rest, t, s => direct rest t (s.setPc (wordOf s.latch t.lo + plus))
  | .branch op :: rest, t, s =>
    direct rest t (if taken op s then (takeBranch t s).stall 3 else s.stall 2)
  | .stall total :: rest, t, s => direct rest t (s.stall total)
  | .suspend :: rest, t, s => direct rest t s.nextTick
  | .halt :: rest, t, s => direct rest t s.halt
  | .resetSequence :: rest, t, s => direct rest t s
  | .readAt addr :: rest, t, s => direct rest t (s.memRead addr).2
  | .loadVector :: rest, t, s =>
    direct rest t ((((s.setPc (wordOf s.latch t.lo)).setA 0).setX 0).setY 0)

/-! ## The sequencer field -/

section
variable (s : State) (q : Seq)

theorem operate_setSeq (op : Mnemonic) (v : Byte) : operate op v (s.setSeq q) = (operate op v s).setSeq q := by
  cases op <;> rfl

theorem modify_setSeq (op : Mnemonic) (v : Byte) :
    modify op v (s.setSeq q) = ((modify op v s).1, (modify op v s).2.setSeq q) := by
  cases op <;> rfl

theorem sourceByte_setSeq (op : Mnemonic) : sourceByte op (s.setSeq q) = sourceByte op s := by cases op <;> rfl

theorem taken_setSeq (op : Mnemonic) : taken op (s.setSeq q) = taken op s := by cases op <;> rfl

theorem indexed_setSeq (b : Word) (i : Byte) :
    (s.setSeq q).indexed b i = ((s.indexed b i).1, (s.indexed b i).2.setSeq q) := by
  simp only [State.indexed]
  split <;> rfl

theorem settle_setSeq (n : Nat) : (s.setSeq q).settle n = (s.settle n).setSeq q := by
  have h : (s.setSeq q).remaining n = s.remaining n := rfl
  simp only [settle, h]
  split <;> rfl

theorem setPc_setSeq (v : Word) : (s.setSeq q).setPc v = (s.setPc v).setSeq q := rfl

theorem takeBranch_setSeq (t : Tmp) : takeBranch t (s.setSeq q) = (takeBranch t s).setSeq q := by
  by_cases h : highByte t.ea = highByte s.pc
  · simp [takeBranch, h]; rfl
  · simp [takeBranch, h]; rfl

theorem afterStall_setSeq (n : Nat) (rest : List Micro) (t : Tmp) {go : State → State}
    (hgo : ∀ u, go (u.setSeq q) = go u) : afterStall n rest t (s.setSeq q) go = afterStall n rest t s go := by
  have h : (s.setSeq q).remaining n = s.remaining n := rfl
  simp only [afterStall, h, settle_setSeq]
  split
  · exact hgo _
  · rfl

/-- `Advance()` overwrites the sequencer field and never reads it. -/
theorem advance_setSeq (rest : List Micro) (t : Tmp) : advance rest t (s.setSeq q) = advance rest t s := by
  induction rest generalizing t s with
  | nil => rfl
  | cons m rest ih =>
    cases m with
    | branch op =>
      simp only [advance, taken_setSeq, takeBranch_setSeq]
      rw [afterStall_setSeq _ _ _ _ _ (fun u => ih u t), afterStall_setSeq _ _ _ _ _ (fun u => ih u t)]
    | stall n => exact afterStall_setSeq _ _ _ _ _ (fun u => ih u t)
    | loadVector => exact ih ((((s.setPc (wordOf s.latch t.lo)).setA 0).setX 0).setY 0) t
    | modifyA op =>
      simp only [advance, modify_setSeq, setSeq_a]
      exact ih ((modify op s.a s).2.setA (modify op s.a s).1) t
    | halt => exact ih s.halt t
    | _ => first
      | rfl
      | exact ih _ _
      | (simp only [advance, operate_setSeq, modify_setSeq, indexed_setSeq, setPc_setSeq]; exact ih _ _)

end

/-! ## What an effect leaves -/

section
variable (s : State)

@[simp] theorem operate_ticks (op : Mnemonic) (v : Byte) : (operate op v s).ticks = s.ticks := by
  cases op <;> simp [operate, opLda, opLdx, opLdy, opPla, opPlp, opAdc, opSbc, opAnd, opOra, opEor, opCmp, opCpx, opCpy, opBit, opTsx,
    opTxs, opTax, opTay, opTxa, opTya, opInx, opIny, opDex, opDey, opClc, opSec, opCli, opSei, opClv, opCld, opSed, opNop]

@[simp] theorem operate_halted (op : Mnemonic) (v : Byte) : (operate op v s).halted = s.halted := by
  cases op <;> simp [operate, opLda, opLdx, opLdy, opPla, opPlp, opAdc, opSbc, opAnd, opOra, opEor, opCmp, opCpx, opCpy, opBit, opTsx,
    opTxs, opTax, opTay, opTxa, opTya, opInx, opIny, opDex, opDey, opClc, opSec, opCli, opSei, opClv, opCld, opSed, opNop]

@[simp] theorem operate_seq (op : Mnemonic) (v : Byte) : (operate op v s).seq = s.seq := by
  cases op <;> simp [operate, opLda, opLdx, opLdy, opPla, opPlp, opAdc, opSbc, opAnd, opOra, opEor, opCmp, opCpx, opCpy, opBit, opTsx,
    opTxs, opTax, opTay, opTxa, opTya, opInx, opIny, opDex, opDey, opClc, opSec, opCli, opSei, opClv, opCld, opSed, opNop]

/-- A read-modify-write's function changes P only. -/
theorem modify_eq_setP (op : Mnemonic) (v : Byte) : ∃ p, (modify op v s).2 = s.setP p := by
  cases op <;> exact ⟨_, rfl⟩

@[simp] theorem modify_ticks (op : Mnemonic) (v : Byte) : (modify op v s).2.ticks = s.ticks := by
  obtain ⟨p, h⟩ := modify_eq_setP s op v
  rw [h, setP_ticks]

@[simp] theorem modify_halted (op : Mnemonic) (v : Byte) : (modify op v s).2.halted = s.halted := by
  obtain ⟨p, h⟩ := modify_eq_setP s op v
  rw [h, setP_halted]

@[simp] theorem modify_seq (op : Mnemonic) (v : Byte) : (modify op v s).2.seq = s.seq := by
  obtain ⟨p, h⟩ := modify_eq_setP s op v
  rw [h, setP_seq]

@[simp] theorem takeBranch_ticks (t : Tmp) : (takeBranch t s).ticks = s.ticks := by
  simp only [takeBranch]
  split <;> rfl

@[simp] theorem takeBranch_halted (t : Tmp) : (takeBranch t s).halted = s.halted := by
  simp only [takeBranch]
  split <;> rfl

@[simp] theorem takeBranch_seq (t : Tmp) : (takeBranch t s).seq = s.seq := by
  simp only [takeBranch]
  split <;> rfl

@[simp] theorem indexed_halted (b : Word) (i : Byte) : (s.indexed b i).2.halted = s.halted := by
  simp only [State.indexed]
  split <;> rfl

@[simp] theorem indexed_seq (b : Word) (i : Byte) : (s.indexed b i).2.seq = s.seq := by
  simp only [State.indexed]
  split <;> rfl

end

/-! ## Ticking a sequence to its end -/

/-- Ticking the rest of a sequence from a state in its tick to its end gives what `direct` gives: at once if it never
suspends, else after as many ticks as `direct` counts, the last of which asserts the next opcode fetch. -/
structure Runs (rest : List Micro) (t : Tmp) (s : State) : Prop where
  halted : (direct rest t s).halted = false
  idle : (direct rest t s).seq = .idle
  le : s.ticks ≤ (direct rest t s).ticks
  atOnce : (direct rest t s).ticks = s.ticks → advance rest t s = direct rest t s
  suspends : s.ticks < (direct rest t s).ticks → (advance rest t s).seq ≠ .idle ∧
    ticksAfter ((direct rest t s).ticks - s.ticks) (advance rest t s) = (direct rest t s).issueFetch

/-- The tick that resumes a suspended sequence. -/
theorem tick_suspended (s : State) (rest : List Micro) (t : Tmp) (h : s.halted = false) :
    tick (s.setSeq (.exec rest t)) =
      match (advance rest t s.nextTick).seq with
      | .idle => (advance rest t s.nextTick).issueFetch
      | .exec _ _ => advance rest t s.nextTick := by
  have hd : (s.setSeq (.exec rest t)).beginTick = s.beginTick.setSeq (.exec rest t) := by
    simp only [beginTick, devicePhase, setSeq_bus, setTicks_bus]
    cases s.bus.dir
    · rfl
    · by_cases hk : s.backed s.bus.addr = true
      · simp [hk]; rfl
      · simp [hk]; rfl
  have hc : (s.beginTick.setSeq (.exec rest t)).capture = s.beginTick.capture.setSeq (.exec rest t) := by
    by_cases hp : s.pending = true
    · simp [capture, hp]; rfl
    · simp [capture, hp]
  have hn : (s.beginTick.capture.setSeq (.exec rest t)).setCyc (s.cyc + 1) = s.nextTick.setSeq (.exec rest t) := by
    simp only [nextTick, capture_cyc, beginTick_cyc]; rfl
  simp only [tick, coreStep, hd, setSeq_halted, beginTick_halted, h, hc, setSeq_seq, setSeq_cyc, capture_cyc,
    beginTick_cyc, hn, advance_setSeq]
  rfl

/-- A suspending micro-step in front: its tick, then the rest. -/
theorem Runs.suspend {m : Micro} {rest : List Micro} {t : Tmp} {s u : State} (hh : u.halted = false)
    (ht : u.ticks = s.ticks) (ha : advance (m :: rest) t s = u.setSeq (.exec rest t))
    (hd : direct (m :: rest) t s = direct rest t u.nextTick) (h : Runs rest t u.nextTick) : Runs (m :: rest) t s := by
  have hn : u.nextTick.ticks = s.ticks + 1 := by simp [ht]
  have hle := h.le
  refine ⟨hd ▸ h.halted, hd ▸ h.idle, by rw [hd]; omega, fun e => absurd e (by rw [hd]; omega), fun _ => ⟨?_, ?_⟩⟩
  · rw [ha]; simp
  · have e : (direct (m :: rest) t s).ticks - s.ticks = ((direct rest t u.nextTick).ticks - u.nextTick.ticks) + 1 := by
      rw [hd]; omega
    rw [e, ha, ticksAfter, tick_suspended u rest t hh, hd]
    rcases Nat.eq_or_lt_of_le hle with he | hl
    · have := h.atOnce he.symm
      rw [this, h.idle, ← he]
      simp [ticksAfter]
    · obtain ⟨hs, hr⟩ := h.suspends hl
      rw [← hr]
      cases hq : (advance rest t u.nextTick).seq
      · exact absurd hq hs
      · rfl

/-- A micro-step in front that suspends nothing. -/
theorem Runs.plain {m : Micro} {rest : List Micro} {t t' : Tmp} {s u : State} (ht : u.ticks = s.ticks)
    (ha : advance (m :: rest) t s = advance rest t' u) (hd : direct (m :: rest) t s = direct rest t' u)
    (h : Runs rest t' u) : Runs (m :: rest) t s := by
  refine ⟨hd ▸ h.halted, hd ▸ h.idle, by rw [hd]; have := h.le; omega, fun e => ?_, fun e => ?_⟩
  · rw [ha, hd]; exact h.atOnce (by rw [hd] at e; omega)
  · rw [ha, hd, ← ht]; exact h.suspends (by rw [hd] at e; omega)

/-- Some suspensions in front. -/
theorem Runs.replicate {rest : List Micro} {t : Tmp} (n : Nat) {s : State} (hh : s.halted = false)
    (h : Runs rest t (State.suspends n s)) : Runs (List.replicate n .suspend ++ rest) t s := by
  revert s
  induction n with
  | zero => exact fun _ h => h
  | succ n ih => exact fun {s} hh h => (ih (s := s.nextTick) (by simpa using hh) h).suspend hh rfl rfl rfl

/-- A stall in front. -/
theorem Runs.stall {m : Micro} {rest : List Micro} {t : Tmp} {s u : State} (n : Nat) (hh : u.halted = false)
    (ht : u.ticks = s.ticks) (ha : advance (m :: rest) t s = afterStall n rest t u (advance rest t))
    (hd : direct (m :: rest) t s = direct rest t (u.stall n)) (h : Runs rest t (u.stall n)) : Runs (m :: rest) t s := by
  have hs : u.stall n = State.suspends (u.remaining n).toNat (u.settle n) := rfl
  unfold afterStall at ha
  cases hk : (u.remaining n).toNat with
  | zero =>
    rw [hk] at ha hs
    exact Runs.plain (t' := t) (u := u.settle n) (by simpa using ht) ha (by rw [hd, hs]; rfl) (show Runs rest t (State.suspends 0 (u.settle n)) from hs ▸ h)
  | succ k =>
    rw [hk] at ha hs
    have hr : Runs (List.replicate k .suspend ++ rest) t (u.settle n).nextTick :=
      Runs.replicate k (by simpa using hh) (by rw [hs] at h; exact h)
    have hdir : ∀ (j : Nat) (v : State), direct (List.replicate j .suspend ++ rest) t v = direct rest t (State.suspends j v) := by
      intro j
      induction j with
      | zero => intro v; rfl
      | succ j ih => intro v; exact ih v.nextTick
    have hq := Runs.suspend (m := .suspend) (s := u.settle n) (u := u.settle n) (by simpa using hh) rfl rfl rfl hr
    have e : direct (m :: rest) t s = direct (.suspend :: (List.replicate k .suspend ++ rest)) t (u.settle n) := by
      rw [hd, hs]; exact (hdir (k + 1) (u.settle n)).symm
    have ea : advance (m :: rest) t s = advance (.suspend :: (List.replicate k .suspend ++ rest)) t (u.settle n) := ha
    have et : (u.settle n).ticks = s.ticks := by simpa using ht
    exact ⟨e ▸ hq.halted, e ▸ hq.idle, by rw [e, ← et]; exact hq.le, fun x => by rw [ea, e]; exact hq.atOnce (by rw [← e, et]; exact x),
      fun x => by rw [ea, e, ← et]; exact hq.suspends (by rw [← e, et]; exact x)⟩

/-- The micro-steps of instructions that complete: all but the halt and the start of the reset sequence. -/
def Micro.completes : Micro → Bool
  | .halt | .resetSequence => false
  | _ => true

/-- Ticking a suspended sequence to its end is running it straight. -/
theorem runs (rest : List Micro) (t : Tmp) (s : State) (hr : ∀ m ∈ rest, m.completes = true) (hh : s.halted = false)
    (hi : s.seq = .idle) : Runs rest t s := by
  induction rest generalizing t s with
  | nil =>
    have e : advance [] t s = s := by
      show s.setSeq .idle = s
      rw [← hi]; rfl
    exact ⟨hh, hi, Nat.le_refl _, fun _ => e, fun h => absurd h (Nat.lt_irrefl _)⟩
  | cons m rest ih =>
    have hrest : ∀ m ∈ rest, m.completes = true := fun x hx => hr x (List.mem_cons_of_mem _ hx)
    have hm : m.completes = true := hr m List.mem_cons_self
    have go : ∀ t (u : State), u.halted = false → u.seq = .idle → Runs rest t u := fun t u h1 h2 => ih t u hrest h1 h2
    have gs : ∀ t (u : State), u.halted = false → u.seq = .idle → Runs rest t u.nextTick :=
      fun t u h1 h2 => go t _ (by simpa using h1) (by simpa using h2)
    cases m with
    | halt => exact absurd hm Bool.false_ne_true
    | resetSequence => exact absurd hm Bool.false_ne_true
    | stall n => exact Runs.stall n hh rfl rfl rfl (go _ _ (by simpa using hh) (by simpa using hi))
    | branch op =>
      by_cases hk : taken op s = true
      · exact Runs.stall 3 (u := takeBranch t s) (by simpa using hh) (by simp) (by simp [advance, hk]) (by simp [direct, hk])
          (go _ _ (by simpa using hh) (by simpa using hi))
      · exact Runs.stall 2 (u := s) hh rfl (by simp [advance, hk]) (by simp [direct, hk])
          (go _ _ (by simpa using hh) (by simpa using hi))
    | operate op => exact Runs.plain (u := operate op s.latch s) (by simp) rfl rfl (go _ _ (by simpa using hh) (by simpa using hi))
    | modify op => exact Runs.plain (u := (Machine.modify op s.latch s).2) (by simp) rfl rfl (go _ _ (by simpa using hh) (by simpa using hi))
    | modifyA op => exact Runs.plain (u := (Machine.modify op s.a s).2.setA (Machine.modify op s.a s).1) (by simp) rfl rfl (go _ _ (by simpa using hh) (by simpa using hi))
    | immediate => exact Runs.plain (u := s.setPc (s.pc + 1)) rfl rfl rfl (go _ _ hh hi)
    | keepLow | zeroPage | zeroPageX | zeroPageY | absolute | pointerZp | pointerZpX | pointerAbs | relative | source _
    | returnHigh | returnLow => exact Runs.plain (u := s) rfl rfl rfl (go _ _ hh hi)
    | absoluteX =>
      exact Runs.plain (u := (s.indexed (wordOf s.latch t.lo) s.x).2) (by simp) rfl rfl
        (go _ _ (by simpa using hh) (by simpa using hi))
    | absoluteY =>
      exact Runs.plain (u := (s.indexed (wordOf s.latch t.lo) s.y).2) (by simp) rfl rfl
        (go _ _ (by simpa using hh) (by simpa using hi))
    | jump => exact Runs.plain (u := s.setPc t.ea) rfl rfl rfl (go _ _ hh hi)
    | resume plus => exact Runs.plain (u := s.setPc (wordOf s.latch t.lo + plus)) rfl rfl rfl (go _ _ hh hi)
    | loadVector =>
      exact Runs.plain (u := (((s.setPc (wordOf s.latch t.lo)).setA 0).setX 0).setY 0) rfl rfl rfl (go _ _ hh hi)
    | suspend => exact Runs.suspend (u := s) hh rfl rfl rfl (gs _ _ hh hi)
    | fetch8 =>
      exact Runs.suspend (u := (s.setPc (s.pc + 1)).assertRead s.pc) hh rfl rfl rfl (gs _ _ hh hi)
    | readPtr =>
      exact Runs.suspend (u := s.assertRead t.ptr) hh rfl rfl rfl (gs _ _ hh hi)
    | readPtrNext =>
      exact Runs.suspend (u := s.assertRead (nextInPage t.ptr)) hh rfl rfl rfl (gs _ _ hh hi)
    | read => exact Runs.suspend (u := s.assertRead t.ea) hh rfl rfl rfl (gs _ _ hh hi)
    | readAt addr =>
      exact Runs.suspend (u := s.assertRead addr) hh rfl rfl rfl (gs _ _ hh hi)
    | write =>
      exact Runs.suspend (u := s.assertWrite t.ea t.val) hh rfl rfl rfl (gs _ _ hh hi)
    | push =>
      exact Runs.suspend (u := (s.setSp (s.sp - 1)).assertWrite (stackAddr s.sp) t.val) hh rfl rfl rfl (gs _ _ hh hi)
    | pull =>
      exact Runs.suspend (u := (s.setSp (s.sp + 1)).assertRead (stackAddr (s.sp + 1))) hh rfl rfl rfl (gs _ _ hh hi)

end Sys2Proof.Machine
end

