-- ==== Sys2Proof/Laws/Straight.lean ====
section
/-! SUPPORT. An instruction's meaning is its micro-steps run straight (40_clock_step_sequencer.md R94): mode routine by mode
routine, then class by class. -/

namespace Sys2Proof

open Sys2Proof.Machine State

/-- The modes whose routine returns an address, the immediate mode's being that of the operand byte itself. -/
def Mode.returnsAddress : Mode → Bool
  | .imp | .acc => false
  | _ => true

/-- The operand of an instruction is what its operand reads will be delivered (30_encoding.md R73). -/
def Instr.Delivered (i : Instr) (s : State) : Prop :=
  match i with
  | .ldaImm nn | .ldxImm nn | .ldyImm nn | .adcImm nn | .sbcImm nn | .andImm nn | .oraImm nn | .eorImm nn | .cmpImm nn
  | .cpxImm nn | .cpyImm nn | .ldaZp nn | .ldxZp nn | .ldyZp nn | .staZp nn | .stxZp nn | .styZp nn | .adcZp nn |
  .sbcZp nn | .andZp nn | .oraZp nn | .eorZp nn | .cmpZp nn | .cpxZp nn | .cpyZp nn | .bitZp nn | .incZp nn | .decZp nn
  | .aslZp nn | .lsrZp nn | .rolZp nn | .rorZp nn | .ldaZpx nn | .ldyZpx nn | .staZpx nn | .styZpx nn | .adcZpx nn
  | .sbcZpx nn | .andZpx nn | .oraZpx nn | .eorZpx nn | .cmpZpx nn | .incZpx nn | .decZpx nn | .aslZpx nn |
  .lsrZpx nn | .rolZpx nn | .rorZpx nn | .ldxZpy nn | .stxZpy nn | .ldaIzx nn | .staIzx nn | .adcIzx nn | .sbcIzx nn
  | .andIzx nn | .oraIzx nn | .eorIzx nn | .cmpIzx nn | .ldaIzy nn | .staIzy nn | .adcIzy nn | .sbcIzy nn | .andIzy nn
  | .oraIzy nn | .eorIzy nn | .cmpIzy nn => nn = s.afterOne
  | .ldaAbs addr | .ldxAbs addr | .ldyAbs addr | .staAbs addr | .stxAbs addr | .styAbs addr | .adcAbs addr | .sbcAbs addr
  | .andAbs addr | .oraAbs addr | .eorAbs addr | .cmpAbs addr | .cpxAbs addr | .cpyAbs addr | .bitAbs addr |
  .incAbs addr | .decAbs addr | .aslAbs addr | .lsrAbs addr | .rolAbs addr | .rorAbs addr | .jmpAbs addr | .jsr addr
  | .ldaAbx addr | .ldyAbx addr | .staAbx addr | .adcAbx addr | .sbcAbx addr | .andAbx addr | .oraAbx addr | .eorAbx addr
  | .cmpAbx addr | .incAbx addr | .decAbx addr | .aslAbx addr | .lsrAbx addr | .rolAbx addr | .rorAbx addr |
  .ldaAby addr | .ldxAby addr | .staAby addr | .adcAby addr | .sbcAby addr | .andAby addr | .oraAby addr | .eorAby addr
  | .cmpAby addr | .jmpInd addr => addr = wordOf s.afterTwo s.afterOne
  | .bcc offset | .bcs offset | .beq offset | .bne offset | .bmi offset | .bpl offset | .bvc offset | .bvs offset => offset = s.afterOne.toInt
  | .pha | .php | .pla | .plp | .tsx | .txs | .tax | .tay | .txa | .tya | .inx | .iny | .dex | .dey | .aslAcc |
  .lsrAcc | .rolAcc | .rorAcc | .rts | .rti | .clc | .sec | .cli | .sei | .clv | .cld | .sed | .nop | .brk => True

/-- The instruction looked up ahead of its operand reads is the one its opcode byte selects, with the operand those reads
will deliver. -/
theorem delivered_of_decoded (s : State) (i : Instr) (h : s.decoded = some i) :
    i.Delivered s ∧ table s.latch = some ⟨i.mnemonic, i.mode, i.total⟩ := by
  have h1 : s.serve s.bus.value s.pc = s.afterOne := rfl
  have h2 : s.serve s.afterOne (s.pc + 1) = s.afterTwo := rfl
  unfold State.decoded State.incoming at h
  simp only [h1, h2, decode] at h
  generalize s.latch = op at h ⊢
  generalize hm : opcodeMap op = f at h
  unfold opcodeMap at hm
  split at hm <;> subst hm <;> cases h
  all_goals first | exact ⟨rfl, rfl⟩ | exact ⟨trivial, rfl⟩

/-- The entry of an instruction's opcode, as a value. -/
def Instr.slot (i : Instr) : Entry := ⟨i.mnemonic, i.mode, i.total⟩

namespace Machine

section
variable (s : State)

theorem fetchOperand_latch_one : s.fetchOperand.latch = s.afterOne := by simp [State.afterOne]

theorem fetchOperand_afterOne : s.fetchOperand.afterOne = s.afterTwo := by
  simp [State.afterOne, afterTwo, serve, backed, fetchOperand, fetch8_eq]

theorem memRead_latch_eq (a : Word) : (s.memRead a).2.latch = (s.memRead a).1 := rfl

theorem direct_imm (rest : List Micro) : direct (modeSteps .imm ++ rest) Tmp.start s =
    direct rest { Tmp.start with ea := (immediate s).1 } (immediate s).2 := rfl

theorem direct_zp (rest : List Micro) : direct (modeSteps .zp ++ rest) Tmp.start s =
    direct rest { Tmp.start with ea := (zeroPage s.afterOne s).1 } (zeroPage s.afterOne s).2 := by
  simp only [modeSteps, List.cons_append, List.nil_append, direct, fetchOperand_latch_one, zeroPage]

theorem direct_zpx (rest : List Micro) : direct (modeSteps .zpx ++ rest) Tmp.start s =
    direct rest { Tmp.start with ea := (zeroPageX s.afterOne s).1 } (zeroPageX s.afterOne s).2 := by
  simp only [modeSteps, List.cons_append, List.nil_append, direct, fetchOperand_latch_one, zeroPageX]

theorem direct_zpy (rest : List Micro) : direct (modeSteps .zpy ++ rest) Tmp.start s =
    direct rest { Tmp.start with ea := (zeroPageY s.afterOne s).1 } (zeroPageY s.afterOne s).2 := by
  simp only [modeSteps, List.cons_append, List.nil_append, direct, fetchOperand_latch_one, zeroPageY]

theorem direct_abs (rest : List Micro) : direct (modeSteps .abs ++ rest) Tmp.start s =
    direct rest { Tmp.start with lo := s.afterOne, ea := wordOf s.afterTwo s.afterOne }
      (absolute (wordOf s.afterTwo s.afterOne) s).2 := by
  simp only [modeSteps, List.cons_append, List.nil_append, direct, fetchOperand_latch_one,
    fetchOperand_afterOne, absolute]

theorem direct_abx (rest : List Micro) : direct (modeSteps .abx ++ rest) Tmp.start s =
    direct rest { Tmp.start with lo := s.afterOne, ea := (absoluteX (wordOf s.afterTwo s.afterOne) s).1 }
      (absoluteX (wordOf s.afterTwo s.afterOne) s).2 := by
  simp only [modeSteps, List.cons_append, List.nil_append, direct, fetchOperand_latch_one,
    fetchOperand_afterOne, absoluteX]

theorem direct_aby (rest : List Micro) : direct (modeSteps .aby ++ rest) Tmp.start s =
    direct rest { Tmp.start with lo := s.afterOne, ea := (absoluteY (wordOf s.afterTwo s.afterOne) s).1 }
      (absoluteY (wordOf s.afterTwo s.afterOne) s).2 := by
  simp only [modeSteps, List.cons_append, List.nil_append, direct, fetchOperand_latch_one,
    fetchOperand_afterOne, absoluteY]

theorem nextInPage_zero (b : Byte) : nextInPage (b.setWidth 16) = (b + 1).setWidth 16 := by
  revert b; decide

theorem direct_izx : ∃ t, t.ea = (indexedIndirectX s.afterOne s).1 ∧ ∀ rest,
    direct (modeSteps .izx ++ rest) Tmp.start s = direct rest t (indexedIndirectX s.afterOne s).2 := by
  let p : Word := (s.afterOne + s.fetchOperand.x).setWidth 16
  refine ⟨⟨(s.fetchOperand.memRead p).1, p, (indexedIndirectX s.afterOne s).1, 0⟩, rfl, fun rest => ?_⟩
  simp only [p, modeSteps, List.cons_append, List.nil_append, direct, fetchOperand_latch_one, nextInPage_zero,
    indexedIndirectX, memRead_latch_eq, Tmp.start]

theorem direct_izy : ∃ t, t.ea = (indirectIndexedY s.afterOne s).1 ∧ ∀ rest,
    direct (modeSteps .izy ++ rest) Tmp.start s = direct rest t (indirectIndexedY s.afterOne s).2 := by
  let p : Word := s.afterOne.setWidth 16
  refine ⟨⟨(s.fetchOperand.memRead p).1, p, (indirectIndexedY s.afterOne s).1, 0⟩, rfl, fun rest => ?_⟩
  simp only [p, modeSteps, List.cons_append, List.nil_append, direct, fetchOperand_latch_one, nextInPage_zero,
    indirectIndexedY, memRead_latch_eq, Tmp.start]

theorem direct_rel (rest : List Micro) : direct (modeSteps .rel ++ rest) Tmp.start s =
    direct rest { Tmp.start with ea := (relative s.afterOne.toInt s).1 } (relative s.afterOne.toInt s).2 := by
  simp only [modeSteps, List.cons_append, List.nil_append, direct, fetchOperand_latch_one, relative, BitVec.signExtend]

theorem direct_ind : ∃ t, t.ea = (absoluteIndirect (wordOf s.afterTwo s.afterOne) s).1 ∧ ∀ rest,
    direct (modeSteps .ind ++ rest) Tmp.start s = direct rest t (absoluteIndirect (wordOf s.afterTwo s.afterOne) s).2 := by
  let p : Word := wordOf s.afterTwo s.afterOne
  refine ⟨⟨(s.fetchOperand.fetchOperand.memRead p).1, p, (absoluteIndirect p s).1, 0⟩, rfl, fun rest => ?_⟩
  simp only [p, modeSteps, List.cons_append, List.nil_append, direct, fetchOperand_latch_one, fetchOperand_afterOne,
    absoluteIndirect, memRead_latch_eq, Tmp.start]

end

/-- The micro-steps of a mode routine are the routine. -/
theorem direct_mode (i : Instr) (s : State) (h : i.Delivered s) :
    ∃ t, (i.mode.returnsAddress = true → t.ea = (i.address s).1) ∧
      ∀ rest, direct (modeSteps i.mode ++ rest) Tmp.start s = direct rest t (i.address s).2 := by
  cases i with
  | ldaImm _ | ldxImm _ | ldyImm _ | adcImm _ | sbcImm _ | andImm _ | oraImm _ | eorImm _ | cmpImm _ | cpxImm _
    | cpyImm _ => exact ⟨_, fun _ => rfl, direct_imm s⟩
  | ldaZp _ | ldxZp _ | ldyZp _ | staZp _ | stxZp _ | styZp _ | adcZp _ | sbcZp _ | andZp _ | oraZp _ | eorZp _
    | cmpZp _ | cpxZp _ | cpyZp _ | bitZp _ | incZp _ | decZp _ | aslZp _ | lsrZp _ | rolZp _ | rorZp _ => cases h; exact ⟨_, fun _ => rfl, direct_zp s⟩
  | ldaZpx _ | ldyZpx _ | staZpx _ | styZpx _ | adcZpx _ | sbcZpx _ | andZpx _ | oraZpx _ | eorZpx _ | cmpZpx _
    | incZpx _ | decZpx _ | aslZpx _ | lsrZpx _ | rolZpx _ | rorZpx _ => cases h; exact ⟨_, fun _ => rfl, direct_zpx s⟩
  | ldxZpy _ | stxZpy _ => cases h; exact ⟨_, fun _ => rfl, direct_zpy s⟩
  | ldaAbs _ | ldxAbs _ | ldyAbs _ | staAbs _ | stxAbs _ | styAbs _ | adcAbs _ | sbcAbs _ | andAbs _ | oraAbs _
    | eorAbs _ | cmpAbs _ | cpxAbs _ | cpyAbs _ | bitAbs _ | incAbs _ | decAbs _ | aslAbs _ | lsrAbs _ | rolAbs _
    | rorAbs _ | jmpAbs _ | jsr _ => cases h; exact ⟨_, fun _ => rfl, direct_abs s⟩
  | ldaAbx _ | ldyAbx _ | staAbx _ | adcAbx _ | sbcAbx _ | andAbx _ | oraAbx _ | eorAbx _ | cmpAbx _ | incAbx _
    | decAbx _ | aslAbx _ | lsrAbx _ | rolAbx _ | rorAbx _ => cases h; exact ⟨_, fun _ => rfl, direct_abx s⟩
  | ldaAby _ | ldxAby _ | staAby _ | adcAby _ | sbcAby _ | andAby _ | oraAby _ | eorAby _ | cmpAby _ => cases h; exact ⟨_, fun _ => rfl, direct_aby s⟩
  | ldaIzx _ | staIzx _ | adcIzx _ | sbcIzx _ | andIzx _ | oraIzx _ | eorIzx _ | cmpIzx _ => cases h; obtain ⟨t, ht, hd⟩ := direct_izx s; exact ⟨t, fun _ => ht, hd⟩
  | ldaIzy _ | staIzy _ | adcIzy _ | sbcIzy _ | andIzy _ | oraIzy _ | eorIzy _ | cmpIzy _ => cases h; obtain ⟨t, ht, hd⟩ := direct_izy s; exact ⟨t, fun _ => ht, hd⟩
  | bcc _ | bcs _ | beq _ | bne _ | bmi _ | bpl _ | bvc _ | bvs _ => cases h; exact ⟨_, fun _ => rfl, direct_rel s⟩
  | jmpInd _ => cases h; obtain ⟨t, ht, hd⟩ := direct_ind s; exact ⟨t, fun _ => ht, hd⟩
  | pha | php | pla | plp | tsx | txs | tax | tay | txa | tya | inx | iny | dex | dey | aslAcc | lsrAcc | rolAcc
    | rorAcc | rts | rti | clc | sec | cli | sei | clv | cld | sed | nop | brk => exact ⟨Tmp.start, fun hm =>
    absurd hm Bool.false_ne_true, fun _ => rfl⟩

section
variable {i : Instr} {s : State}

theorem source_value (h : i.Delivered s) (hm : i.mode = .imm) : (i.source s).1 = s.afterOne := by
  cases i <;> first | exact h | cases hm

theorem operationSteps_reader {e : Entry} (h : e.mnemonic.isReader = true) :
    operationSteps e = [.read, .operate e.mnemonic, .stall e.total] := by
  obtain ⟨m, _, _⟩ := e
  cases m <;> first | exact absurd h Bool.false_ne_true | rfl

theorem operationSteps_storer {e : Entry} (h : e.mnemonic.isStorer = true) :
    operationSteps e = [.source e.mnemonic, .write, .stall e.total] := by
  obtain ⟨m, _, _⟩ := e
  cases m <;> first | exact absurd h Bool.false_ne_true | rfl

theorem operationSteps_modifier {e : Entry} (h : e.mnemonic.isModifier = true) (hm : e.mode ≠ .acc) :
    operationSteps e = [.read, .modify e.mnemonic, .write, .stall e.total] := by
  obtain ⟨m, _, _⟩ := e
  cases m <;> first | exact absurd h Bool.false_ne_true | rfl | exact if_neg hm

theorem operationSteps_registerOnly {e : Entry} (h : e.mnemonic.isRegisterOnly = true) :
    operationSteps e = [.operate e.mnemonic, .stall e.total] := by
  obtain ⟨m, _, _⟩ := e
  cases m <;> first | exact absurd h Bool.false_ne_true | rfl

theorem operationSteps_branch {i : Instr} (h : i.mode = .rel) : operationSteps i.slot = [.branch i.mnemonic] := by
  cases i <;> first | (cases h; done) | rfl

theorem straight_reader (hd : i.Delivered s) (h : i.mnemonic.isReader = true) :
    exec i s = .next (direct (sequenceOf i.slot) Tmp.start s) := by
  obtain ⟨t, ht, hs⟩ := direct_mode i s hd
  have ha : i.mode.returnsAddress = true := by cases i <;> first | exact absurd h Bool.false_ne_true | rfl
  rw [exec_reader i s h, sequenceOf, operationSteps_reader h]
  show _ = Host.Outcome.next (direct (modeSteps i.mode ++ _) _ _)
  rw [hs]
  simp only [direct, ht ha, readOp, memRead_latch_eq]
  by_cases hm : i.mode = .imm
  · have e1 : (i.source s).2 = ((i.address s).2.memRead (i.address s).1).2 := by
      cases i <;> first | (cases hm; done) | rfl
    have e2 : (i.source s).1 = ((i.address s).2.memRead (i.address s).1).1 := by
      rw [source_value hd hm]
      have : i.address s = immediate s := by cases i <;> first | (cases hm; done) | rfl
      rw [this]
      simp [immediate, State.afterOne]
    rw [e1, e2]; rfl
  · rw [source_eq i s hm]; rfl

theorem straight_storer (hd : i.Delivered s) (h : i.mnemonic.isStorer = true) :
    exec i s = .next (direct (sequenceOf i.slot) Tmp.start s) := by
  obtain ⟨t, ht, hs⟩ := direct_mode i s hd
  have ha : i.mode.returnsAddress = true := by cases i <;> first | exact absurd h Bool.false_ne_true | rfl
  rw [exec_storer i s h, sequenceOf, operationSteps_storer h]
  show _ = Host.Outcome.next (direct (modeSteps i.mode ++ _) _ _)
  rw [hs]
  simp only [direct, ht ha, storeOp]; rfl

theorem straight_modifier (hd : i.Delivered s) (h : i.mnemonic.isModifier = true) (hm : i.mode ≠ .acc) :
    exec i s = .next (direct (sequenceOf i.slot) Tmp.start s) := by
  obtain ⟨t, ht, hs⟩ := direct_mode i s hd
  have ha : i.mode.returnsAddress = true := by
    cases i <;> first | exact absurd h Bool.false_ne_true | exact absurd rfl hm | rfl
  rw [exec_modifier i s h hm, sequenceOf, operationSteps_modifier h hm]
  show _ = Host.Outcome.next (direct (modeSteps i.mode ++ _) _ _)
  rw [hs]
  simp only [direct, ht ha, modifyOp]; rfl

theorem straight_registerOnly (h : i.mnemonic.isRegisterOnly = true) :
    exec i s = .next (direct (sequenceOf i.slot) Tmp.start s) := by
  have hm : modeSteps i.mode = [] := by cases i <;> first | exact absurd h Bool.false_ne_true | rfl
  rw [exec_registerOnly i s h s.latch, sequenceOf, operationSteps_registerOnly h]
  show _ = Host.Outcome.next (direct (modeSteps i.mode ++ _) _ _)
  rw [hm]; rfl

theorem straight_accumulator (h : i.mode = .acc) :
    exec i s = .next (direct (sequenceOf i.slot) Tmp.start s) := by
  rw [exec_accumulator i s h]
  cases i <;> first | (cases h; done) | rfl

theorem straight_branch (hd : i.Delivered s) (h : i.mode = .rel) :
    exec i s = .next (direct (sequenceOf i.slot) Tmp.start s) := by
  obtain ⟨t, ht, hs⟩ := direct_mode i s hd
  rw [exec_branch i s h, sequenceOf, operationSteps_branch h]
  show _ = Host.Outcome.next (direct (modeSteps i.mode ++ _) _ _)
  rw [hs]
  simp only [direct, takeBranch, ht (by rw [h]; rfl)]

theorem straight_stack
    (h : i.mnemonic.isPusher = true ∨ i.mnemonic.isPuller = true ∨ i.mnemonic = .rts ∨ i.mnemonic = .rti) :
    exec i s = .next (direct (sequenceOf i.slot) Tmp.start s) := by
  rcases h with h | h | h | h
  · rw [exec_pusher i s h]
    cases i <;> first | exact absurd h Bool.false_ne_true | rfl
  · rw [exec_puller i s h]
    cases i <;> first | exact absurd h Bool.false_ne_true | rfl
  · cases i <;> first | (cases h; done) | rfl
  · cases i with
    | rti =>
      have hz : ∀ w : Word, w + 0 = w := BitVec.add_zero
      show exec .rti s = .next (direct (modeSteps .imp ++ operationSteps ⟨.rti, .imp, 6⟩) Tmp.start s)
      simp only [modeSteps, operationSteps, List.nil_append, direct, hz]
      rfl
    | _ => cases h

theorem straight_jump (hd : i.Delivered s) (h : i.mnemonic.isJump = true ∨ i.mnemonic = .jsr) :
    exec i s = .next (direct (sequenceOf i.slot) Tmp.start s) := by
  obtain ⟨t, ht, hs⟩ := direct_mode i s hd
  rcases h with h | h
  · rw [exec_jump i s h, sequenceOf]
    show _ = Host.Outcome.next (direct (modeSteps i.mode ++ _) _ _)
    rw [hs]
    cases i <;> first
      | exact absurd h Bool.false_ne_true
      | (simp only [operationSteps, Instr.slot, Instr.mnemonic, direct, jumpOp, ht rfl])
  · cases i with
    | jsr addr =>
      rw [sequenceOf]
      show _ = Host.Outcome.next (direct (modeSteps (Instr.jsr addr).mode ++ _) _ _)
      rw [hs]
      have ht' := ht rfl
      simp only [operationSteps, Instr.slot, Instr.mnemonic, direct, ht']
      have hp : ((absolute addr s).2.push (highByte ((absolute addr s).2.pc - 1))).pc = (absolute addr s).2.pc := by
        simp [push_eq]
      simp only [Instr.address, hp]
      rfl
    | _ => cases h

/-- Every instruction but BRK is its micro-steps run straight. -/
theorem exec_straight (hd : i.Delivered s) (hb : i.mnemonic ≠ .brk) :
    exec i s = .next (direct (sequenceOf i.slot) Tmp.start s) := by
  by_cases h1 : i.mnemonic.isReader = true
  · exact straight_reader hd h1
  by_cases h2 : i.mnemonic.isStorer = true
  · exact straight_storer hd h2
  by_cases h3 : i.mode = .acc
  · exact straight_accumulator h3
  by_cases h4 : i.mnemonic.isModifier = true
  · exact straight_modifier hd h4 h3
  by_cases h5 : i.mnemonic.isRegisterOnly = true
  · exact straight_registerOnly h5
  by_cases h6 : i.mode = .rel
  · exact straight_branch hd h6
  by_cases h7 : i.mnemonic.isPusher = true ∨ i.mnemonic.isPuller = true ∨ i.mnemonic = .rts ∨ i.mnemonic = .rti
  · exact straight_stack h7
  by_cases h8 : i.mnemonic.isJump = true ∨ i.mnemonic = .jsr
  · exact straight_jump hd h8
  · exfalso
    cases i <;> simp_all [Instr.mnemonic, Instr.mode, Mnemonic.isReader, Mnemonic.isStorer, Mnemonic.isModifier,
      Mnemonic.isRegisterOnly, Mnemonic.isPusher, Mnemonic.isPuller, Mnemonic.isJump]

end

/-- The sequence of every entry but BRK's completes. -/
theorem completes_sequenceOf {e : Entry} (h : e.mnemonic ≠ .brk) : ∀ m ∈ sequenceOf e, m.completes = true := by
  have hm : (modeSteps e.mode).all Micro.completes = true := by
    obtain ⟨_, m, _⟩ := e
    cases m <;> rfl
  have ho : (operationSteps e).all Micro.completes = true := by
    obtain ⟨op, m, n⟩ := e
    by_cases hacc : m = .acc
    · subst hacc
      cases op <;> first | rfl | exact absurd rfl h
    · cases op <;> first | rfl | exact absurd rfl h | (simp only [operationSteps, if_neg hacc]; rfl)
  intro m hmem
  rcases List.mem_append.mp hmem with hx | hx
  · exact List.all_eq_true.mp hm m hx
  · exact List.all_eq_true.mp ho m hx

end Machine

end Sys2Proof
end

