-- ==== Sys2Proof/Tests/Slice0.lean ====
section
/-! SUPPORT. Tests: well-formedness, one encoded word per constructor, single instructions from the vectors of
95_test_vectors.md, reset and fetching, and a witness for the hypotheses of every statement that has some. -/

namespace Sys2Proof.Tests

open Sys2Proof Sys2Proof.Machine

/-! ## Well-formedness (30_encoding.md R72: a branch offset is -128 to 127) -/

theorem test_wellFormed_accepts : (Instr.beq 127).WellFormed = true ∧ (Instr.bvs (-128)).WellFormed = true := by decide

theorem test_wellFormed_refuses_bcc : (Instr.bcc 128).WellFormed = false := by decide
theorem test_wellFormed_refuses_bcs : (Instr.bcs (-129)).WellFormed = false := by decide
theorem test_wellFormed_refuses_beq : (Instr.beq 128).WellFormed = false := by decide
theorem test_wellFormed_refuses_bne : (Instr.bne (-129)).WellFormed = false := by decide
theorem test_wellFormed_refuses_bmi : (Instr.bmi 128).WellFormed = false := by decide
theorem test_wellFormed_refuses_bpl : (Instr.bpl (-129)).WellFormed = false := by decide
theorem test_wellFormed_refuses_bvc : (Instr.bvc 256).WellFormed = false := by decide
theorem test_wellFormed_refuses_bvs : (Instr.bvs (-200)).WellFormed = false := by decide

/-! ## Decoding (30_encoding.md R70 to R76): the opcode byte of R76, then the operand, a word low byte first, an offset in
two's complement. Operand bytes 9C, or 34 F2, so that no two fields look alike. -/

/-- A word decodes to an instruction with nothing left. -/
def reads (bytes : List Byte) (i : Instr) : Bool :=
  match decode bytes with
  | .ok (j, rest) => decide (j = i) && rest.isEmpty
  | .error _ => false

theorem test_decode_lda :
    reads [0xA9, 0x9C] (.ldaImm 0x9C) = true ∧
    reads [0xA5, 0x9C] (.ldaZp 0x9C) = true ∧
    reads [0xB5, 0x9C] (.ldaZpx 0x9C) = true ∧
    reads [0xAD, 0x34, 0xF2] (.ldaAbs 0xF234) = true ∧
    reads [0xBD, 0x34, 0xF2] (.ldaAbx 0xF234) = true ∧
    reads [0xB9, 0x34, 0xF2] (.ldaAby 0xF234) = true ∧
    reads [0xA1, 0x9C] (.ldaIzx 0x9C) = true ∧
    reads [0xB1, 0x9C] (.ldaIzy 0x9C) = true := by
  decide
theorem test_decode_ldx :
    reads [0xA2, 0x9C] (.ldxImm 0x9C) = true ∧
    reads [0xA6, 0x9C] (.ldxZp 0x9C) = true ∧
    reads [0xB6, 0x9C] (.ldxZpy 0x9C) = true ∧
    reads [0xAE, 0x34, 0xF2] (.ldxAbs 0xF234) = true ∧
    reads [0xBE, 0x34, 0xF2] (.ldxAby 0xF234) = true := by
  decide
theorem test_decode_ldy :
    reads [0xA0, 0x9C] (.ldyImm 0x9C) = true ∧
    reads [0xA4, 0x9C] (.ldyZp 0x9C) = true ∧
    reads [0xB4, 0x9C] (.ldyZpx 0x9C) = true ∧
    reads [0xAC, 0x34, 0xF2] (.ldyAbs 0xF234) = true ∧
    reads [0xBC, 0x34, 0xF2] (.ldyAbx 0xF234) = true := by
  decide
theorem test_decode_sta :
    reads [0x85, 0x9C] (.staZp 0x9C) = true ∧
    reads [0x95, 0x9C] (.staZpx 0x9C) = true ∧
    reads [0x8D, 0x34, 0xF2] (.staAbs 0xF234) = true ∧
    reads [0x9D, 0x34, 0xF2] (.staAbx 0xF234) = true ∧
    reads [0x99, 0x34, 0xF2] (.staAby 0xF234) = true ∧
    reads [0x81, 0x9C] (.staIzx 0x9C) = true ∧
    reads [0x91, 0x9C] (.staIzy 0x9C) = true := by
  decide
theorem test_decode_stx :
    reads [0x86, 0x9C] (.stxZp 0x9C) = true ∧
    reads [0x96, 0x9C] (.stxZpy 0x9C) = true ∧
    reads [0x8E, 0x34, 0xF2] (.stxAbs 0xF234) = true := by
  decide
theorem test_decode_sty :
    reads [0x84, 0x9C] (.styZp 0x9C) = true ∧
    reads [0x94, 0x9C] (.styZpx 0x9C) = true ∧
    reads [0x8C, 0x34, 0xF2] (.styAbs 0xF234) = true := by
  decide
theorem test_decode_pha :
    reads [0x48] (.pha) = true := by
  decide
theorem test_decode_php :
    reads [0x08] (.php) = true := by
  decide
theorem test_decode_pla :
    reads [0x68] (.pla) = true := by
  decide
theorem test_decode_plp :
    reads [0x28] (.plp) = true := by
  decide
theorem test_decode_tsx :
    reads [0xBA] (.tsx) = true := by
  decide
theorem test_decode_txs :
    reads [0x9A] (.txs) = true := by
  decide
theorem test_decode_tax :
    reads [0xAA] (.tax) = true := by
  decide
theorem test_decode_tay :
    reads [0xA8] (.tay) = true := by
  decide
theorem test_decode_txa :
    reads [0x8A] (.txa) = true := by
  decide
theorem test_decode_tya :
    reads [0x98] (.tya) = true := by
  decide
theorem test_decode_adc :
    reads [0x69, 0x9C] (.adcImm 0x9C) = true ∧
    reads [0x65, 0x9C] (.adcZp 0x9C) = true ∧
    reads [0x75, 0x9C] (.adcZpx 0x9C) = true ∧
    reads [0x6D, 0x34, 0xF2] (.adcAbs 0xF234) = true ∧
    reads [0x7D, 0x34, 0xF2] (.adcAbx 0xF234) = true ∧
    reads [0x79, 0x34, 0xF2] (.adcAby 0xF234) = true ∧
    reads [0x61, 0x9C] (.adcIzx 0x9C) = true ∧
    reads [0x71, 0x9C] (.adcIzy 0x9C) = true := by
  decide
theorem test_decode_sbc :
    reads [0xE9, 0x9C] (.sbcImm 0x9C) = true ∧
    reads [0xE5, 0x9C] (.sbcZp 0x9C) = true ∧
    reads [0xF5, 0x9C] (.sbcZpx 0x9C) = true ∧
    reads [0xED, 0x34, 0xF2] (.sbcAbs 0xF234) = true ∧
    reads [0xFD, 0x34, 0xF2] (.sbcAbx 0xF234) = true ∧
    reads [0xF9, 0x34, 0xF2] (.sbcAby 0xF234) = true ∧
    reads [0xE1, 0x9C] (.sbcIzx 0x9C) = true ∧
    reads [0xF1, 0x9C] (.sbcIzy 0x9C) = true := by
  decide
theorem test_decode_and :
    reads [0x29, 0x9C] (.andImm 0x9C) = true ∧
    reads [0x25, 0x9C] (.andZp 0x9C) = true ∧
    reads [0x35, 0x9C] (.andZpx 0x9C) = true ∧
    reads [0x2D, 0x34, 0xF2] (.andAbs 0xF234) = true ∧
    reads [0x3D, 0x34, 0xF2] (.andAbx 0xF234) = true ∧
    reads [0x39, 0x34, 0xF2] (.andAby 0xF234) = true ∧
    reads [0x21, 0x9C] (.andIzx 0x9C) = true ∧
    reads [0x31, 0x9C] (.andIzy 0x9C) = true := by
  decide
theorem test_decode_ora :
    reads [0x09, 0x9C] (.oraImm 0x9C) = true ∧
    reads [0x05, 0x9C] (.oraZp 0x9C) = true ∧
    reads [0x15, 0x9C] (.oraZpx 0x9C) = true ∧
    reads [0x0D, 0x34, 0xF2] (.oraAbs 0xF234) = true ∧
    reads [0x1D, 0x34, 0xF2] (.oraAbx 0xF234) = true ∧
    reads [0x19, 0x34, 0xF2] (.oraAby 0xF234) = true ∧
    reads [0x01, 0x9C] (.oraIzx 0x9C) = true ∧
    reads [0x11, 0x9C] (.oraIzy 0x9C) = true := by
  decide
theorem test_decode_eor :
    reads [0x49, 0x9C] (.eorImm 0x9C) = true ∧
    reads [0x45, 0x9C] (.eorZp 0x9C) = true ∧
    reads [0x55, 0x9C] (.eorZpx 0x9C) = true ∧
    reads [0x4D, 0x34, 0xF2] (.eorAbs 0xF234) = true ∧
    reads [0x5D, 0x34, 0xF2] (.eorAbx 0xF234) = true ∧
    reads [0x59, 0x34, 0xF2] (.eorAby 0xF234) = true ∧
    reads [0x41, 0x9C] (.eorIzx 0x9C) = true ∧
    reads [0x51, 0x9C] (.eorIzy 0x9C) = true := by
  decide
theorem test_decode_cmp :
    reads [0xC9, 0x9C] (.cmpImm 0x9C) = true ∧
    reads [0xC5, 0x9C] (.cmpZp 0x9C) = true ∧
    reads [0xD5, 0x9C] (.cmpZpx 0x9C) = true ∧
    reads [0xCD, 0x34, 0xF2] (.cmpAbs 0xF234) = true ∧
    reads [0xDD, 0x34, 0xF2] (.cmpAbx 0xF234) = true ∧
    reads [0xD9, 0x34, 0xF2] (.cmpAby 0xF234) = true ∧
    reads [0xC1, 0x9C] (.cmpIzx 0x9C) = true ∧
    reads [0xD1, 0x9C] (.cmpIzy 0x9C) = true := by
  decide
theorem test_decode_cpx :
    reads [0xE0, 0x9C] (.cpxImm 0x9C) = true ∧
    reads [0xE4, 0x9C] (.cpxZp 0x9C) = true ∧
    reads [0xEC, 0x34, 0xF2] (.cpxAbs 0xF234) = true := by
  decide
theorem test_decode_cpy :
    reads [0xC0, 0x9C] (.cpyImm 0x9C) = true ∧
    reads [0xC4, 0x9C] (.cpyZp 0x9C) = true ∧
    reads [0xCC, 0x34, 0xF2] (.cpyAbs 0xF234) = true := by
  decide
theorem test_decode_bit :
    reads [0x24, 0x9C] (.bitZp 0x9C) = true ∧
    reads [0x2C, 0x34, 0xF2] (.bitAbs 0xF234) = true := by
  decide
theorem test_decode_inc :
    reads [0xE6, 0x9C] (.incZp 0x9C) = true ∧
    reads [0xF6, 0x9C] (.incZpx 0x9C) = true ∧
    reads [0xEE, 0x34, 0xF2] (.incAbs 0xF234) = true ∧
    reads [0xFE, 0x34, 0xF2] (.incAbx 0xF234) = true := by
  decide
theorem test_decode_dec :
    reads [0xC6, 0x9C] (.decZp 0x9C) = true ∧
    reads [0xD6, 0x9C] (.decZpx 0x9C) = true ∧
    reads [0xCE, 0x34, 0xF2] (.decAbs 0xF234) = true ∧
    reads [0xDE, 0x34, 0xF2] (.decAbx 0xF234) = true := by
  decide
theorem test_decode_inx :
    reads [0xE8] (.inx) = true := by
  decide
theorem test_decode_iny :
    reads [0xC8] (.iny) = true := by
  decide
theorem test_decode_dex :
    reads [0xCA] (.dex) = true := by
  decide
theorem test_decode_dey :
    reads [0x88] (.dey) = true := by
  decide
theorem test_decode_asl :
    reads [0x0A] (.aslAcc) = true ∧
    reads [0x06, 0x9C] (.aslZp 0x9C) = true ∧
    reads [0x16, 0x9C] (.aslZpx 0x9C) = true ∧
    reads [0x0E, 0x34, 0xF2] (.aslAbs 0xF234) = true ∧
    reads [0x1E, 0x34, 0xF2] (.aslAbx 0xF234) = true := by
  decide
theorem test_decode_lsr :
    reads [0x4A] (.lsrAcc) = true ∧
    reads [0x46, 0x9C] (.lsrZp 0x9C) = true ∧
    reads [0x56, 0x9C] (.lsrZpx 0x9C) = true ∧
    reads [0x4E, 0x34, 0xF2] (.lsrAbs 0xF234) = true ∧
    reads [0x5E, 0x34, 0xF2] (.lsrAbx 0xF234) = true := by
  decide
theorem test_decode_rol :
    reads [0x2A] (.rolAcc) = true ∧
    reads [0x26, 0x9C] (.rolZp 0x9C) = true ∧
    reads [0x36, 0x9C] (.rolZpx 0x9C) = true ∧
    reads [0x2E, 0x34, 0xF2] (.rolAbs 0xF234) = true ∧
    reads [0x3E, 0x34, 0xF2] (.rolAbx 0xF234) = true := by
  decide
theorem test_decode_ror :
    reads [0x6A] (.rorAcc) = true ∧
    reads [0x66, 0x9C] (.rorZp 0x9C) = true ∧
    reads [0x76, 0x9C] (.rorZpx 0x9C) = true ∧
    reads [0x6E, 0x34, 0xF2] (.rorAbs 0xF234) = true ∧
    reads [0x7E, 0x34, 0xF2] (.rorAbx 0xF234) = true := by
  decide
theorem test_decode_bcc :
    reads [0x90, 0x9C] (.bcc (-100)) = true := by
  decide
theorem test_decode_bcs :
    reads [0xB0, 0x9C] (.bcs (-100)) = true := by
  decide
theorem test_decode_beq :
    reads [0xF0, 0x9C] (.beq (-100)) = true := by
  decide
theorem test_decode_bne :
    reads [0xD0, 0x9C] (.bne (-100)) = true := by
  decide
theorem test_decode_bmi :
    reads [0x30, 0x9C] (.bmi (-100)) = true := by
  decide
theorem test_decode_bpl :
    reads [0x10, 0x9C] (.bpl (-100)) = true := by
  decide
theorem test_decode_bvc :
    reads [0x50, 0x9C] (.bvc (-100)) = true := by
  decide
theorem test_decode_bvs :
    reads [0x70, 0x9C] (.bvs (-100)) = true := by
  decide
theorem test_decode_jmp :
    reads [0x4C, 0x34, 0xF2] (.jmpAbs 0xF234) = true ∧
    reads [0x6C, 0x34, 0xF2] (.jmpInd 0xF234) = true := by
  decide
theorem test_decode_jsr :
    reads [0x20, 0x34, 0xF2] (.jsr 0xF234) = true := by
  decide
theorem test_decode_rts :
    reads [0x60] (.rts) = true := by
  decide
theorem test_decode_rti :
    reads [0x40] (.rti) = true := by
  decide
theorem test_decode_clc :
    reads [0x18] (.clc) = true := by
  decide
theorem test_decode_sec :
    reads [0x38] (.sec) = true := by
  decide
theorem test_decode_cli :
    reads [0x58] (.cli) = true := by
  decide
theorem test_decode_sei :
    reads [0x78] (.sei) = true := by
  decide
theorem test_decode_clv :
    reads [0xB8] (.clv) = true := by
  decide
theorem test_decode_cld :
    reads [0xD8] (.cld) = true := by
  decide
theorem test_decode_sed :
    reads [0xF8] (.sed) = true := by
  decide
theorem test_decode_nop :
    reads [0xEA] (.nop) = true := by
  decide
theorem test_decode_brk :
    reads [0x00] (.brk) = true := by
  decide

/-- 30_encoding.md R78: the first and the last illegal byte, and a stock "NOP". -/
theorem test_decode_illegal : reads [0x02, 0, 0] .nop = false ∧ reads [0xFF, 0, 0] .nop = false ∧
    reads [0x1A, 0, 0] .nop = false := by decide

/-- The encoder writes the bytes of 30_encoding.md R80 and 95_test_vectors.md CT6 and CT15. -/
theorem test_encode : encode (.ldaAbs 0x00FF) = [0xAD, 0xFF, 0x00] ∧ encode (.bne (-7)) = [0xD0, 0xF9] ∧
    encode (.jmpInd 0x12FF) = [0x6C, 0xFF, 0x12] := by decide

/-- An operand the table gives no bits is zero. -/
theorem test_decodeTableWord : decodeTableWord 8 0xA5 = some (.ldaZp 0) ∧ decodeTableWord 24 0x1234AD = some (.ldaAbs 0x1234) ∧
    decodeTableWord 8 0x02 = none := by decide

/-! ## Single instructions (95_test_vectors.md part 3) -/

/-- The boundary before an instruction at `at_`: its opcode read outstanding, all 65536 addresses backed. -/
def bench (at_ : Word) (bytes : List Byte) (a x y sp p : Byte) (cells : List Host.Cell) : State :=
  let s : State := { State.reset with
    a := a, x := x, y := y, sp := sp, p := p, pc := at_ + 1, seq := .idle, bus := ⟨.read, at_, 0⟩
    mem := Memory.ofCells cells }
  State.placeBytes at_ bytes s

/-- What a vector's row lists after one step: A, X, Y, S, P; the address of the next opcode; the period; the number of
diagnostics. -/
def after (s : State) : Option (List Byte × Word × Nat × Nat) :=
  match step s with
  | .next t => some ([t.a, t.x, t.y, t.sp, t.p], t.pc - 1, t.ticks, t.diags.length)
  | _ => none

/-- The byte an address holds after one step. -/
def leaves (s : State) (a : Word) : Option Byte :=
  match step s with
  | .next t => some (t.mem.read a)
  | _ => none

/-- LS1: `LDA $00FF`. -/
theorem test_ls1 :
    after (bench 0x0000 [0xAD, 0xFF, 0x00] 0x00 0x00 0x00 0xFD 0x20 [(0x00FF, 0xAB)]) = some ([0xAB, 0x00, 0x00, 0xFD, 0xA0], 0x0003, 4, 0) := by
  decide
/-- LS3: `LDA #$80`. -/
theorem test_ls3 :
    after (bench 0x0200 [0xA9, 0x80] 0x00 0x00 0x00 0xFD 0x22 []) = some ([0x80, 0x00, 0x00, 0xFD, 0xA0], 0x0202, 4, 0) := by
  decide
/-- LS5: `LDA $F0,X`. -/
theorem test_ls5 :
    after (bench 0x0200 [0xB5, 0xF0] 0x00 0x20 0x00 0xFD 0x20 [(0x0010, 0x11), (0x0110, 0x99)]) = some ([0x11, 0x20, 0x00, 0xFD, 0x20], 0x0202, 4, 0) := by
  decide
/-- LS7: `LDA $12F0,X`. -/
theorem test_ls7 :
    after (bench 0x0200 [0xBD, 0xF0, 0x12] 0x00 0x10 0x00 0xFD 0x20 [(0x1300, 0x02)]) = some ([0x02, 0x10, 0x00, 0xFD, 0x20], 0x0203, 5, 0) := by
  decide
/-- LS9: `LDA ($20,X)`. -/
theorem test_ls9 :
    after (bench 0x0200 [0xA1, 0x20] 0x00 0x04 0x00 0xFD 0x20 [(0x0024, 0x74), (0x0025, 0x20), (0x2074, 0xC3)]) = some ([0xC3, 0x04, 0x00, 0xFD, 0xA0], 0x0202, 5, 1) := by
  decide
/-- LS10: `LDA ($FF,X)`. -/
theorem test_ls10 :
    after (bench 0x0200 [0xA1, 0xFF] 0x00 0x00 0x00 0xFD 0x20 [(0x0000, 0x12), (0x00FF, 0x34), (0x0100, 0x77), (0x1234, 0x5A)]) = some ([0x5A, 0x00, 0x00, 0xFD, 0x20], 0x0202, 5, 1) := by
  decide
/-- LS12: `LDA ($86),Y`. -/
theorem test_ls12 :
    after (bench 0x0200 [0xB1, 0x86] 0x00 0x00 0xF0 0xFD 0x20 [(0x0086, 0x28), (0x0087, 0x40), (0x4118, 0xF0)]) = some ([0xF0, 0x00, 0xF0, 0xFD, 0xA0], 0x0202, 5, 0) := by
  decide
/-- LS15: `LDX $FF,Y`. -/
theorem test_ls15 :
    after (bench 0x0200 [0xB6, 0xFF] 0x00 0x00 0x01 0xFD 0x20 [(0x0000, 0x81)]) = some ([0x00, 0x81, 0x01, 0xFD, 0xA0], 0x0202, 4, 0) := by
  decide
/-- LS16: `LDX $12FF,Y`. -/
theorem test_ls16 :
    after (bench 0x0200 [0xBE, 0xFF, 0x12] 0x00 0x00 0x01 0xFD 0x20 [(0x1300, 0x01)]) = some ([0x00, 0x01, 0x01, 0xFD, 0x20], 0x0203, 5, 0) := by
  decide
/-- LS17: `LDY #$FF`. -/
theorem test_ls17 :
    after (bench 0x0200 [0xA0, 0xFF] 0x00 0x00 0x00 0xFD 0x20 []) = some ([0x00, 0x00, 0xFF, 0xFD, 0xA0], 0x0202, 2, 0) := by
  decide
/-- LS18: `LDY $1200,X`. -/
theorem test_ls18 :
    after (bench 0x0200 [0xBC, 0x00, 0x12] 0x00 0xFF 0x00 0xFD 0x20 [(0x12FF, 0x00)]) = some ([0x00, 0xFF, 0x00, 0xFD, 0x22], 0x0203, 4, 0) := by
  decide
/-- LS19: `STA $0300`. -/
theorem test_ls19 :
    after (bench 0x0200 [0x8D, 0x00, 0x03] 0x5A 0x00 0x00 0xFD 0xA2 []) = some ([0x5A, 0x00, 0x00, 0xFD, 0xA2], 0x0203, 4, 0) ∧
    leaves (bench 0x0200 [0x8D, 0x00, 0x03] 0x5A 0x00 0x00 0xFD 0xA2 []) 0x0300 = some 0x5A := by
  decide
/-- LS22: `STA $12F0,X`. -/
theorem test_ls22 :
    after (bench 0x0200 [0x9D, 0xF0, 0x12] 0x77 0x10 0x00 0xFD 0x20 []) = some ([0x77, 0x10, 0x00, 0xFD, 0x20], 0x0203, 5, 0) ∧
    leaves (bench 0x0200 [0x9D, 0xF0, 0x12] 0x77 0x10 0x00 0xFD 0x20 []) 0x1300 = some 0x77 := by
  decide
/-- LS24: `STA ($40),Y`. -/
theorem test_ls24 :
    after (bench 0x0200 [0x91, 0x40] 0xEE 0x00 0x01 0xFD 0x20 [(0x0040, 0xFF), (0x0041, 0x30)]) = some ([0xEE, 0x00, 0x01, 0xFD, 0x20], 0x0202, 5, 0) ∧
    leaves (bench 0x0200 [0x91, 0x40] 0xEE 0x00 0x01 0xFD 0x20 [(0x0040, 0xFF), (0x0041, 0x30)]) 0x3100 = some 0xEE := by
  decide
/-- LS25: `STX $10`. -/
theorem test_ls25 :
    after (bench 0x0200 [0x86, 0x10] 0x00 0x07 0x00 0xFD 0x20 []) = some ([0x00, 0x07, 0x00, 0xFD, 0x20], 0x0202, 3, 0) ∧
    leaves (bench 0x0200 [0x86, 0x10] 0x00 0x07 0x00 0xFD 0x20 []) 0x0010 = some 0x07 := by
  decide
/-- LS26: `STX $F0,Y`. -/
theorem test_ls26 :
    after (bench 0x0200 [0x96, 0xF0] 0x00 0x44 0x20 0xFD 0x20 []) = some ([0x00, 0x44, 0x20, 0xFD, 0x20], 0x0202, 4, 0) ∧
    leaves (bench 0x0200 [0x96, 0xF0] 0x00 0x44 0x20 0xFD 0x20 []) 0x0010 = some 0x44 := by
  decide
/-- LS27: `STY $1234`. -/
theorem test_ls27 :
    after (bench 0x0200 [0x8C, 0x34, 0x12] 0x00 0x00 0x80 0xFD 0x20 []) = some ([0x00, 0x00, 0x80, 0xFD, 0x20], 0x0203, 4, 0) ∧
    leaves (bench 0x0200 [0x8C, 0x34, 0x12] 0x00 0x00 0x80 0xFD 0x20 []) 0x1234 = some 0x80 := by
  decide
/-- LS28: `STY $10,X`. -/
theorem test_ls28 :
    after (bench 0x0200 [0x94, 0x10] 0x00 0x05 0x09 0xFD 0x20 []) = some ([0x00, 0x05, 0x09, 0xFD, 0x20], 0x0202, 4, 0) ∧
    leaves (bench 0x0200 [0x94, 0x10] 0x00 0x05 0x09 0xFD 0x20 []) 0x0015 = some 0x09 := by
  decide
/-- TS1: `TAX`. -/
theorem test_ts1 :
    after (bench 0x0200 [0xAA] 0x80 0x00 0x00 0xFD 0x20 []) = some ([0x80, 0x80, 0x00, 0xFD, 0xA0], 0x0201, 2, 0) := by
  decide
/-- TS2: `TAY`. -/
theorem test_ts2 :
    after (bench 0x0200 [0xA8] 0x00 0x00 0x55 0xFD 0xA0 []) = some ([0x00, 0x00, 0x00, 0xFD, 0x22], 0x0201, 2, 0) := by
  decide
/-- TS3: `TXA`. -/
theorem test_ts3 :
    after (bench 0x0200 [0x8A] 0xFF 0x7F 0x00 0xFD 0xA2 []) = some ([0x7F, 0x7F, 0x00, 0xFD, 0x20], 0x0201, 2, 0) := by
  decide
/-- TS4: `TYA`. -/
theorem test_ts4 :
    after (bench 0x0200 [0x98] 0x00 0x00 0xFF 0xFD 0x20 []) = some ([0xFF, 0x00, 0xFF, 0xFD, 0xA0], 0x0201, 2, 0) := by
  decide
/-- TS5: `TSX`. -/
theorem test_ts5 :
    after (bench 0x0200 [0xBA] 0x00 0x01 0x00 0x00 0x20 []) = some ([0x00, 0x00, 0x00, 0x00, 0x22], 0x0201, 2, 0) := by
  decide
/-- TS6: `TXS`. -/
theorem test_ts6 :
    after (bench 0x0200 [0x9A] 0x00 0x00 0x00 0x12 0xA0 []) = some ([0x00, 0x00, 0x00, 0x00, 0xA0], 0x0201, 2, 0) := by
  decide
/-- TS8: `PHA`. -/
theorem test_ts8 :
    after (bench 0x0200 [0x48] 0x42 0x00 0x00 0x00 0x20 []) = some ([0x42, 0x00, 0x00, 0xFF, 0x20], 0x0201, 3, 0) ∧
    leaves (bench 0x0200 [0x48] 0x42 0x00 0x00 0x00 0x20 []) 0x0100 = some 0x42 := by
  decide
/-- TS9: `PHP`. -/
theorem test_ts9 :
    after (bench 0x0200 [0x08] 0x00 0x00 0x00 0xFF 0xA1 []) = some ([0x00, 0x00, 0x00, 0xFE, 0xA1], 0x0201, 3, 0) ∧
    leaves (bench 0x0200 [0x08] 0x00 0x00 0x00 0xFF 0xA1 []) 0x01FF = some 0xB1 := by
  decide
/-- TS12: `PLA`. -/
theorem test_ts12 :
    after (bench 0x0200 [0x68] 0x00 0x00 0x00 0xFF 0x20 [(0x0100, 0x80)]) = some ([0x80, 0x00, 0x00, 0x00, 0xA0], 0x0201, 4, 0) := by
  decide
/-- TS13: `PLP`. -/
theorem test_ts13 :
    after (bench 0x0200 [0x28] 0x00 0x00 0x00 0xFE 0x20 [(0x01FF, 0xFF)]) = some ([0x00, 0x00, 0x00, 0xFF, 0xEF], 0x0201, 4, 0) := by
  decide
/-- TS14: `PLP`. -/
theorem test_ts14 :
    after (bench 0x0200 [0x28] 0x00 0x00 0x00 0xFE 0xFF [(0x01FF, 0x00)]) = some ([0x00, 0x00, 0x00, 0xFF, 0x30], 0x0201, 4, 0) := by
  decide
/-- AL3: `ADC #$01`. -/
theorem test_al3 :
    after (bench 0x0200 [0x69, 0x01] 0x7F 0x00 0x00 0xFD 0x20 []) = some ([0x80, 0x00, 0x00, 0xFD, 0xE0], 0x0202, 2, 0) := by
  decide
/-- AL5: `ADC #$FF`. -/
theorem test_al5 :
    after (bench 0x0200 [0x69, 0xFF] 0xFF 0x00 0x00 0xFD 0x21 []) = some ([0xFF, 0x00, 0x00, 0xFD, 0xA1], 0x0202, 2, 0) := by
  decide
/-- AL7: `ADC #$01`. -/
theorem test_al7 :
    after (bench 0x0200 [0x69, 0x01] 0x09 0x00 0x00 0xFD 0x28 []) = some ([0x0A, 0x00, 0x00, 0xFD, 0x28], 0x0202, 2, 0) := by
  decide
/-- AL9: `ADC ($20,X)`. -/
theorem test_al9 :
    after (bench 0x0200 [0x61, 0x20] 0x10 0x04 0x00 0xFD 0x21 [(0x0024, 0x00), (0x0025, 0x30), (0x3000, 0x05)]) = some ([0x16, 0x04, 0x00, 0xFD, 0x20], 0x0202, 6, 0) := by
  decide
/-- AL12: `SBC #$01`. -/
theorem test_al12 :
    after (bench 0x0200 [0xE9, 0x01] 0x80 0x00 0x00 0xFD 0x21 []) = some ([0x7F, 0x00, 0x00, 0xFD, 0x61], 0x0202, 2, 0) := by
  decide
/-- AL13: `SBC #$50`. -/
theorem test_al13 :
    after (bench 0x0200 [0xE9, 0x50] 0x50 0x00 0x00 0xFD 0x20 []) = some ([0xFF, 0x00, 0x00, 0xFD, 0xA0], 0x0202, 2, 0) := by
  decide
/-- AL15: `SBC #$01`. -/
theorem test_al15 :
    after (bench 0x0200 [0xE9, 0x01] 0x10 0x00 0x00 0xFD 0x29 []) = some ([0x0F, 0x00, 0x00, 0xFD, 0x29], 0x0202, 2, 0) := by
  decide
/-- AL18: `AND $10,X`. -/
theorem test_al18 :
    after (bench 0x0200 [0x35, 0x10] 0xFF 0xF0 0x00 0xFD 0x20 [(0x0000, 0x80)]) = some ([0x80, 0xF0, 0x00, 0xFD, 0xA0], 0x0202, 4, 0) := by
  decide
/-- AL20: `ORA ($40),Y`. -/
theorem test_al20 :
    after (bench 0x0200 [0x11, 0x40] 0x00 0x00 0x10 0xFD 0xA0 [(0x0040, 0xF8), (0x0041, 0x30), (0x3108, 0x00)]) = some ([0x00, 0x00, 0x10, 0xFD, 0x22], 0x0202, 6, 0) := by
  decide
/-- AL21: `EOR #$FF`. -/
theorem test_al21 :
    after (bench 0x0200 [0x49, 0xFF] 0xFF 0x00 0x00 0xFD 0x61 []) = some ([0x00, 0x00, 0x00, 0xFD, 0x63], 0x0202, 2, 0) := by
  decide
/-- AL22: `EOR $1234`. -/
theorem test_al22 :
    after (bench 0x0200 [0x4D, 0x34, 0x12] 0x0F 0x00 0x00 0xFD 0x20 [(0x1234, 0xF0)]) = some ([0xFF, 0x00, 0x00, 0xFD, 0xA0], 0x0203, 4, 0) := by
  decide
/-- AL23: `CMP #$40`. -/
theorem test_al23 :
    after (bench 0x0200 [0xC9, 0x40] 0x40 0x00 0x00 0xFD 0xE0 []) = some ([0x40, 0x00, 0x00, 0xFD, 0x63], 0x0202, 2, 0) := by
  decide
/-- AL24: `CMP #$01`. -/
theorem test_al24 :
    after (bench 0x0200 [0xC9, 0x01] 0x00 0x00 0x00 0xFD 0x21 []) = some ([0x00, 0x00, 0x00, 0xFD, 0xA0], 0x0202, 2, 0) := by
  decide
/-- AL27: `CPX #$06`. -/
theorem test_al27 :
    after (bench 0x0200 [0xE0, 0x06] 0x00 0x05 0x00 0xFD 0x20 []) = some ([0x00, 0x05, 0x00, 0xFD, 0xA0], 0x0202, 2, 0) := by
  decide
/-- AL28: `CPX $1234`. -/
theorem test_al28 :
    after (bench 0x0200 [0xEC, 0x34, 0x12] 0x00 0xFF 0x00 0xFD 0x20 [(0x1234, 0xFF)]) = some ([0x00, 0xFF, 0x00, 0xFD, 0x23], 0x0203, 4, 0) := by
  decide
/-- AL29: `CPY #$01`. -/
theorem test_al29 :
    after (bench 0x0200 [0xC0, 0x01] 0x00 0x00 0x10 0xFD 0x20 []) = some ([0x00, 0x00, 0x10, 0xFD, 0x21], 0x0202, 2, 0) := by
  decide
/-- AL30: `CPY $10`. -/
theorem test_al30 :
    after (bench 0x0200 [0xC4, 0x10] 0x00 0x00 0x00 0xFD 0x20 [(0x0010, 0x80)]) = some ([0x00, 0x00, 0x00, 0xFD, 0xA0], 0x0202, 3, 0) := by
  decide
/-- AL31: `BIT $10`. -/
theorem test_al31 :
    after (bench 0x0200 [0x24, 0x10] 0x01 0x00 0x00 0xFD 0x20 [(0x0010, 0xC0)]) = some ([0x01, 0x00, 0x00, 0xFD, 0xE2], 0x0202, 3, 0) := by
  decide
/-- AL32: `BIT $1234`. -/
theorem test_al32 :
    after (bench 0x0200 [0x2C, 0x34, 0x12] 0xFF 0x00 0x00 0xFD 0xE2 [(0x1234, 0x3F)]) = some ([0xFF, 0x00, 0x00, 0xFD, 0x20], 0x0203, 4, 0) := by
  decide
/-- IS1: `INC $0300`. -/
theorem test_is1 :
    after (bench 0x0200 [0xEE, 0x00, 0x03] 0x00 0x00 0x00 0xFD 0xE1 [(0x0300, 0xFF)]) = some ([0x00, 0x00, 0x00, 0xFD, 0x63], 0x0203, 6, 0) ∧
    leaves (bench 0x0200 [0xEE, 0x00, 0x03] 0x00 0x00 0x00 0xFD 0xE1 [(0x0300, 0xFF)]) 0x0300 = some 0x00 := by
  decide
/-- IS5: `INC $12F0,X`. -/
theorem test_is5 :
    after (bench 0x0200 [0xFE, 0xF0, 0x12] 0x00 0x10 0x00 0xFD 0x20 [(0x1300, 0x01)]) = some ([0x00, 0x10, 0x00, 0xFD, 0x20], 0x0203, 7, 0) ∧
    leaves (bench 0x0200 [0xFE, 0xF0, 0x12] 0x00 0x10 0x00 0xFD 0x20 [(0x1300, 0x01)]) 0x1300 = some 0x02 := by
  decide
/-- IS7: `DEC $10`. -/
theorem test_is7 :
    after (bench 0x0200 [0xC6, 0x10] 0x00 0x00 0x00 0xFD 0x21 [(0x0010, 0x00)]) = some ([0x00, 0x00, 0x00, 0xFD, 0xA1], 0x0202, 5, 0) ∧
    leaves (bench 0x0200 [0xC6, 0x10] 0x00 0x00 0x00 0xFD 0x21 [(0x0010, 0x00)]) 0x0010 = some 0xFF := by
  decide
/-- IS9: `DEC $12F0,X`. -/
theorem test_is9 :
    after (bench 0x0200 [0xDE, 0xF0, 0x12] 0x00 0x10 0x00 0xFD 0x20 [(0x1300, 0x10)]) = some ([0x00, 0x10, 0x00, 0xFD, 0x20], 0x0203, 8, 0) ∧
    leaves (bench 0x0200 [0xDE, 0xF0, 0x12] 0x00 0x10 0x00 0xFD 0x20 [(0x1300, 0x10)]) 0x1300 = some 0x0F := by
  decide
/-- IS10: `INX`. -/
theorem test_is10 :
    after (bench 0x0200 [0xE8] 0x00 0xFF 0x00 0xFD 0x21 []) = some ([0x00, 0x00, 0x00, 0xFD, 0x23], 0x0201, 2, 0) := by
  decide
/-- IS12: `INY`. -/
theorem test_is12 :
    after (bench 0x0200 [0xC8] 0x00 0x00 0x00 0xFD 0x22 []) = some ([0x00, 0x00, 0x01, 0xFD, 0x20], 0x0201, 2, 0) := by
  decide
/-- IS14: `DEX`. -/
theorem test_is14 :
    after (bench 0x0200 [0xCA] 0x00 0x00 0x00 0xFD 0x20 []) = some ([0x00, 0xFF, 0x00, 0xFD, 0xA0], 0x0201, 2, 0) := by
  decide
/-- IS15: `DEY`. -/
theorem test_is15 :
    after (bench 0x0200 [0x88] 0x00 0x00 0x80 0xFD 0xA0 []) = some ([0x00, 0x00, 0x7F, 0xFD, 0x20], 0x0201, 2, 0) := by
  decide
/-- IS16: `ASL A`. -/
theorem test_is16 :
    after (bench 0x0200 [0x0A] 0x81 0x00 0x00 0xFD 0x20 []) = some ([0x02, 0x00, 0x00, 0xFD, 0x21], 0x0201, 2, 0) := by
  decide
/-- IS18: `ASL $10`. -/
theorem test_is18 :
    after (bench 0x0200 [0x06, 0x10] 0x00 0x00 0x00 0xFD 0x21 [(0x0010, 0x40)]) = some ([0x00, 0x00, 0x00, 0xFD, 0xA0], 0x0202, 5, 0) ∧
    leaves (bench 0x0200 [0x06, 0x10] 0x00 0x00 0x00 0xFD 0x21 [(0x0010, 0x40)]) 0x0010 = some 0x80 := by
  decide
/-- IS19: `LSR A`. -/
theorem test_is19 :
    after (bench 0x0200 [0x4A] 0x03 0x00 0x00 0xFD 0xA0 []) = some ([0x01, 0x00, 0x00, 0xFD, 0x21], 0x0201, 2, 0) := by
  decide
/-- IS21: `LSR $1234`. -/
theorem test_is21 :
    after (bench 0x0200 [0x4E, 0x34, 0x12] 0x00 0x00 0x00 0xFD 0x21 [(0x1234, 0x80)]) = some ([0x00, 0x00, 0x00, 0xFD, 0x20], 0x0203, 6, 0) ∧
    leaves (bench 0x0200 [0x4E, 0x34, 0x12] 0x00 0x00 0x00 0xFD 0x21 [(0x1234, 0x80)]) 0x1234 = some 0x40 := by
  decide
/-- IS22: `ROL A`. -/
theorem test_is22 :
    after (bench 0x0200 [0x2A] 0x40 0x00 0x00 0xFD 0x21 []) = some ([0x81, 0x00, 0x00, 0xFD, 0xA0], 0x0201, 2, 0) := by
  decide
/-- IS24: `ROL $10,X`. -/
theorem test_is24 :
    after (bench 0x0200 [0x36, 0x10] 0x00 0x01 0x00 0xFD 0x21 [(0x0011, 0xFF)]) = some ([0x00, 0x01, 0x00, 0xFD, 0xA1], 0x0202, 6, 0) ∧
    leaves (bench 0x0200 [0x36, 0x10] 0x00 0x01 0x00 0xFD 0x21 [(0x0011, 0xFF)]) 0x0011 = some 0xFF := by
  decide
/-- IS25: `ROR A`. -/
theorem test_is25 :
    after (bench 0x0200 [0x6A] 0x01 0x00 0x00 0xFD 0x21 []) = some ([0x80, 0x00, 0x00, 0xFD, 0xA1], 0x0201, 2, 0) := by
  decide
/-- IS27: `ROR $12FF,X`. -/
theorem test_is27 :
    after (bench 0x0200 [0x7E, 0xFF, 0x12] 0x00 0x01 0x00 0xFD 0x21 [(0x1300, 0x02)]) = some ([0x00, 0x01, 0x00, 0xFD, 0xA0], 0x0203, 8, 0) ∧
    leaves (bench 0x0200 [0x7E, 0xFF, 0x12] 0x00 0x01 0x00 0xFD 0x21 [(0x1300, 0x02)]) 0x1300 = some 0x81 := by
  decide
/-- CT2: `BCC +2`. -/
theorem test_ct2 :
    after (bench 0x0200 [0x90, 0x02] 0x00 0x00 0x00 0xFD 0x21 []) = some ([0x00, 0x00, 0x00, 0xFD, 0x21], 0x0202, 2, 0) := by
  decide
/-- CT3: `BCS -2`. -/
theorem test_ct3 :
    after (bench 0x0300 [0xB0, 0xFE] 0x00 0x00 0x00 0xFD 0x21 []) = some ([0x00, 0x00, 0x00, 0xFD, 0x21], 0x0300, 3, 0) := by
  decide
/-- CT4: `BEQ +16`. -/
theorem test_ct4 :
    after (bench 0x02F0 [0xF0, 0x10] 0x00 0x00 0x00 0xFD 0x22 []) = some ([0x00, 0x00, 0x00, 0xFD, 0x22], 0x0302, 4, 0) := by
  decide
/-- CT6: `BNE -7`. -/
theorem test_ct6 :
    after (bench 0x0605 [0xD0, 0xF9] 0x00 0x00 0x00 0xFD 0x20 []) = some ([0x00, 0x00, 0x00, 0xFD, 0x20], 0x0600, 3, 0) := by
  decide
/-- CT7: `BMI +127`. -/
theorem test_ct7 :
    after (bench 0x0000 [0x30, 0x7F] 0x00 0x00 0x00 0xFD 0xA0 []) = some ([0x00, 0x00, 0x00, 0xFD, 0xA0], 0x0081, 3, 0) := by
  decide
/-- CT9: `BPL +127`. -/
theorem test_ct9 :
    after (bench 0xFFF0 [0x10, 0x7F] 0x00 0x00 0x00 0xFD 0x20 []) = some ([0x00, 0x00, 0x00, 0xFD, 0x20], 0x0071, 4, 0) := by
  decide
/-- CT10: `BVC +0`. -/
theorem test_ct10 :
    after (bench 0x0200 [0x50, 0x00] 0x00 0x00 0x00 0xFD 0x20 []) = some ([0x00, 0x00, 0x00, 0xFD, 0x20], 0x0202, 3, 0) := by
  decide
/-- CT11: `BVS +5`. -/
theorem test_ct11 :
    after (bench 0x1000 [0x70, 0x05] 0x00 0x00 0x00 0xFD 0x20 []) = some ([0x00, 0x00, 0x00, 0xFD, 0x20], 0x1002, 2, 0) := by
  decide
/-- CT12: `BVS +5`. -/
theorem test_ct12 :
    after (bench 0x1000 [0x70, 0x05] 0x00 0x00 0x00 0xFD 0x60 []) = some ([0x00, 0x00, 0x00, 0xFD, 0x60], 0x1007, 3, 0) := by
  decide
/-- CT13: `BNE +0 (last bytes of a page)`. -/
theorem test_ct13 :
    after (bench 0x02FE [0xD0, 0x00] 0x00 0x00 0x00 0xFD 0x20 []) = some ([0x00, 0x00, 0x00, 0xFD, 0x20], 0x0300, 3, 0) := by
  decide
/-- CT14: `JMP $0600`. -/
theorem test_ct14 :
    after (bench 0x0200 [0x4C, 0x00, 0x06] 0x00 0x00 0x00 0xFD 0xA1 []) = some ([0x00, 0x00, 0x00, 0xFD, 0xA1], 0x0600, 3, 0) := by
  decide
/-- CT15: `JMP ($12FF)`. -/
theorem test_ct15 :
    after (bench 0x0200 [0x6C, 0xFF, 0x12] 0x00 0x00 0x00 0xFD 0x20 [(0x1200, 0x56), (0x12FF, 0x34), (0x1300, 0x78)]) = some ([0x00, 0x00, 0x00, 0xFD, 0x20], 0x5634, 5, 0) := by
  decide
/-- CT18: `JSR $0300`. -/
theorem test_ct18 :
    after (bench 0x0200 [0x20, 0x00, 0x03] 0x00 0x00 0x00 0x00 0x20 []) = some ([0x00, 0x00, 0x00, 0xFE, 0x20], 0x0300, 6, 0) ∧
    leaves (bench 0x0200 [0x20, 0x00, 0x03] 0x00 0x00 0x00 0x00 0x20 []) 0x0100 = some 0x02 ∧
    leaves (bench 0x0200 [0x20, 0x00, 0x03] 0x00 0x00 0x00 0x00 0x20 []) 0x01FF = some 0x02 := by
  decide
/-- CT19: `JSR $1234`. -/
theorem test_ct19 :
    after (bench 0x80FE [0x20, 0x34, 0x12] 0x00 0x00 0x00 0xFD 0x20 []) = some ([0x00, 0x00, 0x00, 0xFB, 0x20], 0x1234, 6, 0) ∧
    leaves (bench 0x80FE [0x20, 0x34, 0x12] 0x00 0x00 0x00 0xFD 0x20 []) 0x01FD = some 0x81 ∧
    leaves (bench 0x80FE [0x20, 0x34, 0x12] 0x00 0x00 0x00 0xFD 0x20 []) 0x01FC = some 0x00 := by
  decide
/-- CT21: `RTS`. -/
theorem test_ct21 :
    after (bench 0x0200 [0x60] 0x00 0x00 0x00 0xFD 0x20 [(0x01FE, 0xFF), (0x01FF, 0xFF)]) = some ([0x00, 0x00, 0x00, 0xFF, 0x20], 0x0000, 6, 0) := by
  decide
/-- CT22: `RTS`. -/
theorem test_ct22 :
    after (bench 0x0200 [0x60] 0x00 0x00 0x00 0xFE 0x20 [(0x0100, 0x20), (0x01FF, 0x10)]) = some ([0x00, 0x00, 0x00, 0x00, 0x20], 0x2011, 6, 0) := by
  decide
/-- CT23: `RTI`. -/
theorem test_ct23 :
    after (bench 0x0200 [0x40] 0x00 0x00 0x00 0xFC 0x20 [(0x01FD, 0xC3), (0x01FE, 0x34), (0x01FF, 0x12)]) = some ([0x00, 0x00, 0x00, 0xFF, 0xE3], 0x1234, 6, 0) := by
  decide
/-- CT24: `RTI`. -/
theorem test_ct24 :
    after (bench 0x0200 [0x40] 0x00 0x00 0x00 0xFC 0x30 [(0x01FD, 0x00), (0x01FE, 0x00), (0x01FF, 0x80)]) = some ([0x00, 0x00, 0x00, 0xFF, 0x30], 0x8000, 6, 0) := by
  decide
/-- FS1: `CLC`. -/
theorem test_fs1 :
    after (bench 0x0200 [0x18] 0x00 0x00 0x00 0xFD 0xFF []) = some ([0x00, 0x00, 0x00, 0xFD, 0xFE], 0x0201, 2, 0) := by
  decide
/-- FS2: `SEC`. -/
theorem test_fs2 :
    after (bench 0x0200 [0x38] 0x00 0x00 0x00 0xFD 0x20 []) = some ([0x00, 0x00, 0x00, 0xFD, 0x21], 0x0201, 2, 0) := by
  decide
/-- FS3: `CLI`. -/
theorem test_fs3 :
    after (bench 0x0200 [0x58] 0x00 0x00 0x00 0xFD 0xFF []) = some ([0x00, 0x00, 0x00, 0xFD, 0xFB], 0x0201, 2, 0) := by
  decide
/-- FS4: `SEI`. -/
theorem test_fs4 :
    after (bench 0x0200 [0x78] 0x00 0x00 0x00 0xFD 0x20 []) = some ([0x00, 0x00, 0x00, 0xFD, 0x24], 0x0201, 2, 0) := by
  decide
/-- FS5: `CLV`. -/
theorem test_fs5 :
    after (bench 0x0200 [0xB8] 0x00 0x00 0x00 0xFD 0xFF []) = some ([0x00, 0x00, 0x00, 0xFD, 0xBF], 0x0201, 2, 0) := by
  decide
/-- FS6: `CLD`. -/
theorem test_fs6 :
    after (bench 0x0200 [0xD8] 0x00 0x00 0x00 0xFD 0xFF []) = some ([0x00, 0x00, 0x00, 0xFD, 0xF7], 0x0201, 2, 0) := by
  decide
/-- FS7: `SED`. -/
theorem test_fs7 :
    after (bench 0x0200 [0xF8] 0x00 0x00 0x00 0xFD 0x20 []) = some ([0x00, 0x00, 0x00, 0xFD, 0x28], 0x0201, 2, 0) := by
  decide
/-- FS8: `NOP`. -/
theorem test_fs8 :
    after (bench 0x0200 [0xEA] 0x01 0x02 0x03 0xFD 0xFF []) = some ([0x01, 0x02, 0x03, 0xFD, 0xFF], 0x0201, 2, 0) := by
  decide
/-- FS10: `BRK`. -/
theorem test_fs10 :
    after (bench 0xFFFF [0x00] 0x00 0x00 0x00 0xFD 0x24 []) = some ([0x00, 0x00, 0x00, 0xFD, 0x24], 0xFFFF, 1, 0) := by
  decide
/-- FS11: `(illegal 0x02)`. -/
theorem test_fs11 :
    after (bench 0x0200 [0x02] 0x01 0x00 0x00 0xFD 0xFF []) = some ([0x01, 0x00, 0x00, 0xFD, 0xFF], 0x0201, 1, 1) := by
  decide

/-- T5 of 95_test_vectors.md: a load from an address no device backs takes the high operand byte. -/
theorem test_stale_read : after { bench 0x0200 [0xAD, 0x00, 0x40] 0 0 0 0xFD 0x20 [] with devices := [⟨0, 0x0800⟩] } =
    some ([0x40, 0, 0, 0xFD, 0x20], 0x0203, 4, 0) := by decide

/-- E6 and T1 of 95_test_vectors.md: D0's scenario, the LDA decoded in tick 12 and A written in tick 15. -/
theorem test_scenario_e6 :
    let s := ticksAfter 15 (State.powerOn { Config.resetParameters with
      a := 0xAA, x := 0xBB, y := 0xCC, sp := 0xDD, latch := 0xEE
      mem := Memory.ofCells [(0, 0xAD), (1, 0xFF), (0xFF, 0xAB)] })
    [s.a, s.x, s.y, s.sp, s.p] = [0xAB, 0, 0, 0xDD, 0xA0] ∧ s.pc = 4 ∧ s.cyc = 3 ∧ s.ticks = 15 := by decide

/-- R255: the opcode read at the vector is asserted in tick 11, not before. -/
theorem test_reset_takes_eleven_ticks : (ticksAfter 10 State.reset).seq ≠ .idle ∧ (ticksAfter 11 State.reset).seq = .idle ∧
    (ticksAfter 11 State.reset).bus.addr = 0 := by decide

theorem test_reset_inv : State.reset.mem.wf = true ∧ State.reset.status = 0x20 ∧ State.reset.pc = 1 := by decide

/-- The very next step after `withFetchWord` runs the placed instruction: LDX #$42. -/
theorem test_withFetchWord :
    (match step (State.reset.withFetchWord 16 0x42A2) with
      | .next t => some (t.x, t.pc)
      | _ => none) = some (0x42, 3) := by decide

/-- A second canonical write of the unlisted value removes the entry (20_memory.md R49, log entry 3). -/
theorem test_memory_form : Memory.write (Memory.write (Memory.write [] 0x1234 5) 0x0012 7) 0x1234 0 = [(0x12, 7)] := by decide

/-- R256 item 2 and U10: a reset vector backed in its low byte only, and one backed in its high byte only, are refused; with
both backed, by two windows, construction answers. -/
theorem test_construct_vector :
    let made (devices : List Window) : Option Refusal := match State.construct { Config.resetParameters with devices } with
      | .refused r => some r
      | _ => none
    made [⟨0, 0xFFFD⟩] = some .resetVectorUnbacked ∧ made [⟨0xFFFD, 3⟩] = some .resetVectorUnbacked ∧
      made [⟨0, 0xFFFD⟩, ⟨0xFFFD, 3⟩] = none := by decide

/-- Host moves: masking, the outstanding fetch stays, overlapping windows are refused (10_state.md R32, 20_memory.md R48). -/
theorem test_host : (match (bench 0x0200 [] 0 0 0 0 0x20 []).hostWriteA 0x1FF with | .next t => some t.a | _ => none) = some 0xFF ∧
    (match (bench 0x0200 [] 0 0 0 0 0x20 []).hostWritePc 0x12345 with | .next t => some (t.pc, t.bus.addr) | _ => none) =
      some (0x2345, 0x0200) ∧
    (match State.construct { Config.resetParameters with devices := [⟨0, 0x800⟩, ⟨0x7FF, 2⟩] } with
      | .refused r => some r
      | _ => none) = some .overlappingWindows := by
  decide

/-- R41: the diagnostic ports of the tick that skips an illegal opcode, and of the next. -/
theorem test_ports : (tick (bench 0x0200 [0x02, 0xEA] 0 0 0 0 0x20 [])).ports.diagIllegal = some 0x02 ∧
    (ticksAfter 2 (bench 0x0200 [0x02, 0xEA] 0 0 0 0 0x20 [])).ports.diagIllegal = none := by decide

/-! ## Witnesses: for every statement with hypotheses, a state and operands that meet them together -/

/-- Whether a step answers a state with a property. -/
def stepsTo (s : State) (q : State → Bool) : Bool :=
  match step s with
  | .next t => q t
  | _ => false

theorem of_stepsTo {s : State} {q : State → Bool} (h : stepsTo s q = true) : ∃ t, step s = .next t ∧ q t = true := by
  unfold stepsTo at h
  split at h
  · exact ⟨_, ‹_›, h⟩
  · cases h

/-- Whether an instruction answers a state with a property. -/
def execsTo (i : Instr) (s : State) (q : State → Bool) : Bool :=
  match exec i s with
  | .next t => q t
  | _ => false

theorem of_execsTo {i : Instr} {s : State} {q : State → Bool} (h : execsTo i s q = true) :
    ∃ t, exec i s = .next t ∧ q t = true := by
  unfold execsTo at h
  split at h
  · exact ⟨_, ‹_›, h⟩
  · cases h

/-- The invariants of a running boundary, as one check. -/
def boundary (s : State) : Bool :=
  !s.halted && decide (s.seq = .idle) && s.pending && decide (s.bus.dir = .read) && decide (s.bus.addr = s.pc - 1) &&
    decide (s.extra = 0) && s.flag .u && s.mem.wf

theorem inv_of_boundary {s : State} (h : boundary s = true) : s.Inv := by
  simp only [boundary, Bool.and_eq_true, Bool.not_eq_true', decide_eq_true_eq] at h
  obtain ⟨⟨⟨⟨⟨⟨⟨h1, h2⟩, h3⟩, h4⟩, h5⟩, h6⟩, h7⟩, h8⟩ := h
  refine ⟨?_, fun _ _ => ⟨h3, h4, h5⟩, fun _ => h4, fun _ => h6, h7, h8, ?_⟩
  · intro h; rw [h1] at h; cases h
  · intro rest t h; rw [h2] at h; cases h

/-- A boundary before a NOP. -/
def atNop : State := bench 0x0200 [0xEA] 1 2 3 0xFD 0x20 []

/-- A boundary before a BRK, memory otherwise empty. -/
def atBrk : State := bench 0x0200 [0x00] 1 2 3 0xFD 0x20 []

/-- A boundary before an illegal opcode. -/
def atIllegal : State := bench 0x0200 [0x02] 1 2 3 0xFD 0x20 []

/-- A decode tick: nothing pending, a read held. -/
def decodeTick : State := { atNop with pending := false, ticks := 1 }

/-- A machine of which only the first 2048 addresses are backed. -/
def partly : State := { atNop with devices := [⟨0, 0x0800⟩] }

theorem atNop_inv : atNop.Inv := inv_of_boundary (by decide)

theorem atBrk_inv : atBrk.Inv := inv_of_boundary (by decide)

theorem witness_DecodeOfEncode : (Instr.bne (-128)).WellFormed = true ∧ (Instr.ldaAbs 0xFFFF).WellFormed = true := by decide

theorem witness_EncodeOfDecode : decode [0x6C, 0xFF, 0x12] = .ok (.jmpInd 0x12FF, []) := rfl

theorem witness_OpcodeByteSelectsEntry : decode (0xD0 :: [0x80, 0x55]) = .ok (.bne (-128), [0x55]) := rfl

theorem witness_StepRunsDecodedInstruction :
    (atNop.halted = false ∧ atNop.seq = .idle ∧ atNop.fetched.decoded = some .nop ∧
      ∃ t, exec .nop (atNop.fetched.setCyc 0) = .next t ∧ t.halted = false) ∧
    (atBrk.halted = false ∧ atBrk.seq = .idle ∧ atBrk.fetched.decoded = some .brk ∧
      ∃ t, exec .brk (atBrk.fetched.setCyc 0) = .next t ∧ t.halted = true) := by
  refine ⟨⟨by decide, by decide, by decide, ?_⟩, by decide, by decide, by decide, _, rfl, rfl⟩
  obtain ⟨t, h, hq⟩ := of_execsTo (i := .nop) (s := atNop.fetched.setCyc 0) (q := fun t => !t.halted) (by decide)
  exact ⟨t, h, by simpa using hq⟩

/-- LDA $1234 across the top of memory: its bytes at FFFF, 0000 and 0001. -/
theorem witness_StepRunsInstructionInMemory :
    let s := bench 0xFFFF [0xAD, 0x34, 0x12] 0 0 0 0xFD 0x20 []
    s.Inv ∧ s.halted = false ∧ s.seq = .idle ∧ (Instr.ldaAbs 0x1234).WellFormed = true ∧
      ∀ (k : Nat) (b : Byte), (encode (.ldaAbs 0x1234))[k]? = some b →
        s.backed (s.pc - 1 + BitVec.ofNat 16 k) = true ∧ s.mem.read (s.pc - 1 + BitVec.ofNat 16 k) = b := by
  refine ⟨inv_of_boundary (by decide), by decide, by decide, by decide, ?_⟩
  have e : encode (.ldaAbs 0x1234) = [0xAD, 0x34, 0x12] := by decide
  intro k b h
  rw [e] at h
  match k, h with
  | 0, h => injection h with h; subst h; decide
  | 1, h => injection h with h; subst h; decide
  | 2, h => injection h with h; subst h; decide
  | _ + 3, h => cases h

theorem witness_IllegalOpcodeSkips : atIllegal.halted = false ∧ atIllegal.seq = .idle ∧ atIllegal.pending = true ∧
    atIllegal.bus.dir = .read ∧ table atIllegal.fetched.latch = none := by decide

theorem witness_HaltedCoreDoesNothing : ({ atBrk with halted := true, pending := false } : State).halted = true ∧
    ({ atBrk with halted := true, pending := false } : State).bus.dir = .read := by decide

theorem witness_OnlyBrkHalts : atBrk.Inv ∧ atBrk.halted = false ∧ ∃ t, step atBrk = .next t ∧ t.halted = true :=
  ⟨atBrk_inv, by decide, of_stepsTo (q := State.halted) (by decide)⟩

theorem witness_StepIsItsTicks : ∃ t, step atNop = .next t ∧ decide (t.ticks - atNop.ticks = 2) = true :=
  of_stepsTo (s := atNop) (q := fun t => decide (t.ticks - atNop.ticks = 2)) (by decide)

theorem witness_InvariantsKeptByStep : atNop.Inv ∧ ∃ t, step atNop = .next t ∧ true = true :=
  ⟨atNop_inv, of_stepsTo (s := atNop) (q := fun _ => true) (by decide)⟩

/-- At a boundary, and in the middle of an instruction that still has to write and to stall. -/
theorem witness_InvariantsKeptByTick : atNop.Inv ∧
    ({ atNop with pending := false, seq := .exec [.write, .stall 4] ⟨0, 0, 0x10, 0x5A⟩, extra := 1 } : State).Inv := by
  refine ⟨atNop_inv, fun h => ?_, fun _ h => ?_, fun h => ?_, fun h => ?_, by decide, by decide, fun rest t h => ?_⟩
  · cases h
  · cases h
  · cases h
  · cases h
  · injection h with h1 h2
    subst h1
    exact ⟨by decide, .inl (by decide)⟩

theorem witness_InvariantsAtPowerOn : Memory.wf (Memory.ofCells [(0xFFFD, 2), (0x0200, 0xEA)]) = true := by decide

theorem witness_BreakUnusedAndWindowsNeverChange :
    atNop.flag .u = true ∧ ∃ t, step atNop = .next t ∧ true = true :=
  ⟨by decide, of_stepsTo (s := atNop) (q := fun _ => true) (by decide)⟩

theorem witness_ResetSequenceLoadsVector :
    State.reset.seq = .resetStart ∧ State.reset.halted = false ∧ State.reset.bus.dir = .read := by decide

theorem witness_ResetEntryPoint : (atNop.seq = .idle ∨ atNop.seq = .resetStart) ∧
    (State.reset.seq = .idle ∨ State.reset.seq = .resetStart) ∧
    ((tick atNop).seq ≠ .idle ∧ (tick atNop).seq ≠ .resetStart) ∧ ∃ t, atNop.hostReset = .next t :=
  ⟨by decide, by decide, by decide, _, rfl⟩

theorem witness_HostRegisterAccess : atNop.seq = .idle ∧ (tick atNop).seq ≠ .idle := by decide

/-- A read at the first backed address, a write at the last, and the first address beyond. -/
theorem witness_DevicePhaseServesTheRecord :
    (let s := { partly with bus := ⟨.read, 0x0000, 0⟩ }; s.bus.dir = .read ∧ s.backed s.bus.addr = true) ∧
    (let s := { partly with bus := ⟨.write, 0x07FF, 9⟩ }
     s.bus.dir = .write ∧ s.backed s.bus.addr = true ∧ s.mem.wf = true) ∧
    (let s := { partly with bus := ⟨.write, 0x0800, 9⟩ }; s.backed s.bus.addr = false) := by decide

theorem witness_HeldTransactionIsIdempotent : ({ atNop with bus := ⟨.write, 0x0300, 9⟩ } : State).mem.wf = true := by decide

theorem witness_UnbackedAccess : partly.backed 0x0800 = false ∧ partly.backed 0xFFFF = false := by decide

/-- The address read is another one, and the one written. -/
theorem witness_ReadAfterWriteOverTheBus : partly.mem.wf = true ∧ partly.backed 0x0000 = true ∧
    partly.backed 0x07FF = true ∧ (0x07FF : Word) ≠ 0x0000 := by decide

/-- At both ends of the stack pointer's range. -/
theorem witness_PushAndPull :
    (let s := { atNop with sp := 0x00 }; s.mem.wf = true ∧ s.backed (State.stackAddr s.sp) = true) ∧
    (let s := { atNop with sp := 0xFF }; s.mem.wf = true ∧ s.backed (State.stackAddr s.sp) = true) := by decide

theorem witness_RelativeTarget : OffsetInRange (-128) ∧ OffsetInRange 127 := by decide

theorem witness_OperandByteOfEachForm : (Instr.ldaZp 0xFF).mode ≠ .imm ∧ (Instr.cpyAbs 0xFFFF).mode ≠ .imm ∧
    partly.backed ((Instr.ldaZp 0xFF).address partly).1 = true ∧
    partly.backed ((Instr.ldaAbs 0x0800).address partly).1 = false := by decide

theorem witness_LoadsTakeTheOperandByte : (Instr.ldaIzy 0xFF).mnemonic = .lda ∧ (Instr.ldxZpy 0xFF).mnemonic = .ldx ∧
    (Instr.ldyAbx 0xFFFF).mnemonic = .ldy := by decide

theorem witness_StoresWriteOneByte : (Instr.staIzx 0xFF).mnemonic = .sta ∧ (Instr.stxZpy 0xFF).mnemonic = .stx ∧
    (Instr.styAbs 0xFFFF).mnemonic = .sty ∧ decodeTick.mem.wf = true := by decide

theorem witness_PushesStoreOnTheStack : ({ decodeTick with sp := 0x00 } : State).mem.wf = true := by decide

theorem witness_AddAndSubtractWithCarry : (Instr.adcImm 0x80).mnemonic = .adc ∧ (Instr.sbcIzy 0xFF).mnemonic = .sbc := by decide

theorem witness_LogicIntoAccumulator : (Instr.andImm 0).mnemonic = .and ∧ (Instr.oraIzx 0xFF).mnemonic = .ora ∧
    (Instr.eorAby 0xFFFF).mnemonic = .eor := by decide

theorem witness_ComparesSetFlags : (Instr.cmpImm 0xFF).mnemonic = .cmp ∧ (Instr.cpxZp 0).mnemonic = .cpx ∧
    (Instr.cpyAbs 0).mnemonic = .cpy := by decide

theorem witness_BitTestSetsFlags : (Instr.bitZp 0).mnemonic = .bit ∧ (Instr.bitAbs 0xFFFF).mnemonic = .bit := by decide

theorem witness_MemoryIncrementAndDecrement : (Instr.incAbx 0xFFFF).mnemonic = .inc ∧ (Instr.decZp 0xFF).mnemonic = .dec ∧
    decodeTick.mem.wf = true := by decide

theorem witness_ShiftsOnTheAccumulator : Instr.aslAcc.mode = .acc ∧ Instr.lsrAcc.mode = .acc ∧ Instr.rolAcc.mode = .acc ∧
    Instr.rorAcc.mode = .acc := by decide

theorem witness_ShiftsOnMemory :
    (∀ i ∈ [Instr.aslZp 0xFF, .lsrZpx 0xFF, .rolAbs 0xFFFF, .rorAbx 0xFFFF],
      i.mnemonic ∈ [.asl, .lsr, .rol, .ror] ∧ i.mode ≠ .acc) ∧ decodeTick.mem.wf = true := by decide

theorem witness_JsrPushesReturnAddress : ({ decodeTick with sp := 0x00 } : State).mem.wf = true := by decide

/-- The return address wraps round the stack page: S is 0. -/
theorem witness_RtsReturnsAfterJsr :
    let s := { decodeTick with sp := 0x00 }
    s.mem.wf = true ∧ s.backed (State.stackAddr s.sp) = true ∧ s.backed (State.stackAddr (s.sp - 1)) = true ∧
      ∃ t u : State, exec (.jsr 0x0300) s = .next t ∧ u.sp = t.sp ∧ u.mem = t.mem ∧ u.devices = t.devices :=
  ⟨by decide, by decide, by decide, _, _, rfl, rfl, rfl, rfl⟩

theorem witness_FlagInstructionsWriteOneFlag : decodeTick.cyc = 0 ∧ decodeTick.extra = 0 := by decide

theorem witness_BrkHaltsInItsDecodeTick :
    atBrk.Inv ∧ atBrk.halted = false ∧ atBrk.seq = .idle ∧ atBrk.fetched.decoded = some .brk :=
  ⟨atBrk_inv, by decide, by decide, by decide⟩

theorem witness_LoadAndReadFrames :
    ((Instr.ldaZp 0xFF).mnemonic ∈ [.lda, .and, .ora, .eor] ∧ ∃ t, exec (.ldaZp 0xFF) decodeTick = .next t) ∧
    ((Instr.ldxImm 0).mnemonic ∈ [.ldx] ∧ ∃ t, exec (.ldxImm 0) decodeTick = .next t) ∧
    ((Instr.ldyAbx 0xFFFF).mnemonic ∈ [.ldy] ∧ ∃ t, exec (.ldyAbx 0xFFFF) decodeTick = .next t) ∧
    ((Instr.sbcIzx 0xFF).mnemonic ∈ [.adc, .sbc] ∧ ∃ t, exec (.sbcIzx 0xFF) decodeTick = .next t) ∧
    ((Instr.cpyAbs 0).mnemonic ∈ [.cmp, .cpx, .cpy] ∧ ∃ t, exec (.cpyAbs 0) decodeTick = .next t) ∧
    ((Instr.bitZp 0).mnemonic ∈ [.bit] ∧ ∃ t, exec (.bitZp 0) decodeTick = .next t) :=
  ⟨⟨by decide, _, rfl⟩, ⟨by decide, _, rfl⟩, ⟨by decide, _, rfl⟩, ⟨by decide, _, rfl⟩, ⟨by decide, _, rfl⟩,
    by decide, _, rfl⟩

theorem witness_StoreAndModifyFrames :
    ((Instr.staIzy 0xFF).mnemonic ∈ [.sta, .stx, .sty] ∧ ∃ t, exec (.staIzy 0xFF) decodeTick = .next t) ∧
    ((Instr.incZpx 0xFF).mnemonic ∈ [.inc, .dec] ∧ ∃ t, exec (.incZpx 0xFF) decodeTick = .next t) ∧
    ((Instr.rorAbx 0xFFFF).mnemonic ∈ [.asl, .lsr, .rol, .ror] ∧ (Instr.rorAbx 0xFFFF).mode ≠ .acc ∧
      ∃ t, exec (.rorAbx 0xFFFF) decodeTick = .next t) :=
  ⟨⟨by decide, _, rfl⟩, ⟨by decide, _, rfl⟩, by decide, by decide, _, rfl⟩

theorem witness_RegisterInstructionFrames : decodeTick.bus.dir = .read ∧
    (Instr.dex.mnemonic ∈ [.tax, .tsx, .inx, .dex] ∧ ∃ t, exec .dex decodeTick = .next t) ∧
    (Instr.iny.mnemonic ∈ [.tay, .iny, .dey] ∧ ∃ t, exec .iny decodeTick = .next t) ∧
    (Instr.tya.mnemonic ∈ [.txa, .tya] ∧ ∃ t, exec .tya decodeTick = .next t) ∧
    (Instr.txs.mnemonic ∈ [.txs] ∧ ∃ t, exec .txs decodeTick = .next t) ∧
    (Instr.rorAcc.mode = .acc ∧ ∃ t, exec .rorAcc decodeTick = .next t) ∧
    (Instr.sec.mnemonic ∈ [.clc, .sec] ∧ ∃ t, exec .sec decodeTick = .next t) ∧
    (Instr.cli.mnemonic ∈ [.cli, .sei] ∧ ∃ t, exec .cli decodeTick = .next t) ∧
    (Instr.clv.mnemonic ∈ [.clv] ∧ ∃ t, exec .clv decodeTick = .next t) ∧
    (Instr.sed.mnemonic ∈ [.cld, .sed] ∧ ∃ t, exec .sed decodeTick = .next t) ∧
    (Instr.nop.mnemonic ∈ [.nop] ∧ ∃ t, exec .nop decodeTick = .next t) :=
  ⟨by decide, ⟨by decide, _, rfl⟩, ⟨by decide, _, rfl⟩, ⟨by decide, _, rfl⟩, ⟨by decide, _, rfl⟩, ⟨by decide, _, rfl⟩,
    ⟨by decide, _, rfl⟩, ⟨by decide, _, rfl⟩, ⟨by decide, _, rfl⟩, ⟨by decide, _, rfl⟩, by decide, _, rfl⟩

theorem witness_StackAndControlFrames : decodeTick.flag .u = true ∧
    (Instr.php.mnemonic ∈ [.pha, .php] ∧ ∃ t, exec .php decodeTick = .next t) ∧
    (Instr.pla.mnemonic ∈ [.pla] ∧ ∃ t, exec .pla decodeTick = .next t) ∧
    (Instr.plp.mnemonic ∈ [.plp] ∧ ∃ t, exec .plp decodeTick = .next t) ∧
    ((Instr.bvs (-128)).mnemonic ∈ [.bcc, .bcs, .beq, .bne, .bmi, .bpl, .bvc, .bvs, .jmp] ∧
      ∃ t, exec (.bvs (-128)) decodeTick = .next t) ∧
    ((Instr.jsr 0xFFFF).mnemonic ∈ [.jsr] ∧ ∃ t, exec (.jsr 0xFFFF) decodeTick = .next t) ∧
    (Instr.rts.mnemonic ∈ [.rts] ∧ ∃ t, exec .rts decodeTick = .next t) ∧
    (Instr.rti.mnemonic ∈ [.rti] ∧ ∃ t, exec .rti decodeTick = .next t) :=
  ⟨by decide, ⟨by decide, _, rfl⟩, ⟨by decide, _, rfl⟩, ⟨by decide, _, rfl⟩, ⟨by decide, _, rfl⟩, ⟨by decide, _, rfl⟩,
    ⟨by decide, _, rfl⟩, by decide, _, rfl⟩

/-- With an underflow (LDA ($nn,X)), without one, and the step of an illegal opcode. -/
theorem witness_PeriodOfEveryInstruction : decodeTick.cyc = 0 ∧ decodeTick.extra = 0 ∧
    ((Instr.ldaIzx 0x20).mnemonic ≠ .brk ∧ (∃ t, exec (.ldaIzx 0x20) decodeTick = .next t) ∧
      accesses (.ldaIzx 0x20) + 1 > declaredTotal (.ldaIzx 0x20) decodeTick + extraCycles (.ldaIzx 0x20) decodeTick) ∧
    (Instr.nop.mnemonic ≠ .brk ∧ ∃ t, exec .nop decodeTick = .next t) ∧
    (atIllegal.halted = false ∧ atIllegal.seq = .idle ∧ atIllegal.fetched.decoded = none ∧
      ∃ t, step atIllegal = .next t ∧ true = true) :=
  ⟨by decide, by decide, ⟨by decide, ⟨_, rfl⟩, by decide⟩, ⟨by decide, _, rfl⟩, by decide, by decide, by decide,
    of_stepsTo (s := atIllegal) (q := fun _ => true) (by decide)⟩

theorem witness_UnderflowCases : decodeTick.extra = 0 ∧ (Instr.staIzy 0x20).mnemonic ≠ .brk ∧
    (Instr.staIzy 0x20).mnemonic ∈ [.lda, .sta] ∧ (Instr.staIzy 0x20).mode = .izy ∧
    (Instr.ldaIzx 0x20).mnemonic ∈ [.lda, .sta] ∧ (Instr.ldaIzx 0x20).mode = .izx := by decide

end Sys2Proof.Tests
end

/-! PROOFS, 00_scope.md: a step is exactly the ticks it takes (R8, 20_memory.md R55). The tick and the step are first said
case by case; a sequence run in ticks is then the sequence run straight (`runs`), which is the meaning (`exec_straight`). -/

namespace Sys2Proof.Machine

open State

/-! ## The tick counter within a tick -/

section
variable (s : State)

@[simp] theorem assertRead_ticks (a : Word) : (s.assertRead a).ticks = s.ticks := rfl
@[simp] theorem assertWrite_ticks (a : Word) (v : Byte) : (s.assertWrite a v).ticks = s.ticks := rfl
@[simp] theorem issueFetch_ticks : s.issueFetch.ticks = s.ticks := rfl
@[simp] theorem skipIllegal_ticks : s.skipIllegal.ticks = s.ticks := rfl
@[simp] theorem halt_ticks : s.halt.ticks = s.ticks := rfl

@[simp] theorem retire_ticks : s.retire.ticks = s.ticks := by
  unfold retire
  split <;> rfl

theorem afterStall_ticks (n : Nat) (rest : List Micro) (t : Tmp) {go : State → State}
    (hgo : ∀ u, (go u).ticks = u.ticks) : (afterStall n rest t s go).ticks = s.ticks := by
  unfold afterStall
  split <;> simp [hgo]

/-- `Advance()` runs within its tick (40_clock_step_sequencer.md R92). -/
@[simp] theorem advance_ticks (rest : List Micro) (t : Tmp) : (advance rest t s).ticks = s.ticks := by
  induction rest generalizing t s with
  | nil => rfl
  | cons m rest ih =>
    cases m with
    | branch op =>
      simp only [advance]
      split <;> simp [afterStall_ticks _ _ _ _ (fun u => ih u t)]
    | stall n => exact afterStall_ticks _ _ _ _ (fun u => ih u t)
    | _ => simp [advance, ih]

@[simp] theorem fetched_ticks : s.fetched.ticks = s.ticks + 1 := by simp [fetched]
@[simp] theorem fetched_halted : s.fetched.halted = s.halted := by simp [fetched]
@[simp] theorem fetched_seq : s.fetched.seq = s.seq := by simp [fetched]

end

/-! ## The decoder and the instruction table -/

/-- The opcode map and the instruction table populate the same slots. -/
theorem table_eq_none_of_opcodeMap {op : Byte} (h : opcodeMap op = none) : table op = none := by
  have same : ∀ b : Byte, (opcodeMap b).isNone = (table b).isNone := by decide
  rw [← Option.isNone_iff_eq_none, ← same, h]
  rfl

/-- Three bytes are enough for every form, so only an illegal opcode is not decoded. -/
theorem table_eq_none_of_decoded {s : State} (h : s.decoded = none) : table s.latch = none := by
  apply table_eq_none_of_opcodeMap
  cases hm : opcodeMap s.latch with
  | none => rfl
  | some f => cases f <;> simp [decoded, incoming, decode, hm] at h

/-! ## One tick, case by case -/

section
variable {s : State}

theorem tick_halted (hh : s.halted = true) : tick s = s.beginTick := by
  simp [tick, coreStep, hh]

theorem tick_illegal (hh : s.halted = false) (hi : s.seq = .idle) (hn : table s.fetched.latch = none) :
    tick s = s.fetched.skipIllegal := by
  simp only [fetched] at hn
  simp [tick, coreStep, fetched, hh, hi, hn]

theorem tick_decode (hh : s.halted = false) (hi : s.seq = .idle) {e : Entry} (he : table s.fetched.latch = some e) :
    tick s = advance (sequenceOf e) Tmp.start (s.fetched.setCyc 0) := by
  simp only [fetched] at he
  simp [tick, coreStep, fetched, hh, hi, he]

/-- Every tick counts one, whatever it does. -/
theorem tick_ticks : (tick s).ticks = s.ticks + 1 := by
  cases hh : s.halted with
  | true => simp [tick_halted hh]
  | false =>
    cases hi : s.seq with
    | idle =>
      cases he : table s.fetched.latch with
      | none => simp [tick_illegal hh hi he]
      | some e => simp [tick_decode hh hi he]
    | exec rest t =>
      have hs : s = s.setSeq (.exec rest t) := by rw [← hi]; rfl
      rw [hs, tick_suspended s rest t hh]
      split <;> simp

/-! ## One step, case by case -/

/-- Away from an instruction boundary, and over an illegal opcode, a step is one tick. -/
theorem step_eq_tick (h : s.halted = true ∨ s.seq ≠ .idle ∨ s.fetched.decoded = none) : step s = .next (tick s) := by
  cases hh : s.halted with
  | true => simp [step, tick_halted hh, hh]
  | false =>
    cases hi : s.seq with
    | exec rest t => simp [step, tick, hh, hi]
    | idle =>
      have hn : s.fetched.decoded = none := by simpa [hh, hi] using h
      rw [tick_illegal hh hi (table_eq_none_of_decoded hn)]
      simp only [fetched] at hn
      simp [step, fetched, hh, hi, hn]

/-- At a boundary, a step is the meaning of the instruction and then the next opcode fetch. -/
theorem step_eq_retire (hh : s.halted = false) (hi : s.seq = .idle) {i : Instr} (hd : s.fetched.decoded = some i)
    {u : State} (he : exec i (s.fetched.setCyc 0) = .next u) : step s = .next u.retire := by
  simp only [fetched] at hd he
  simp [step, hh, hi, hd, he]

end

/-! ## Every sequence but BRK's suspends in its decode tick -/

/-- A stall of two cycles or more, reached in the decode tick, suspends (40_clock_step_sequencer.md R102). -/
theorem afterStall_suspends {n : Nat} (hn : 2 ≤ n) {s : State} (hc : s.cyc = 0) (rest : List Micro) (t : Tmp)
    (go : State → State) : (afterStall n rest t s go).seq ≠ .idle := by
  have hr : 0 < (s.remaining n).toNat := by
    simp only [remaining, hc]
    omega
  unfold afterStall
  split
  case h_1 hz => omega
  case h_2 => simp

@[simp] theorem operate_cyc (op : Mnemonic) (v : Byte) (s : State) : (operate op v s).cyc = s.cyc := by
  cases op <;> rfl

@[simp] theorem modify_cyc (op : Mnemonic) (v : Byte) (s : State) : (modify op v s).2.cyc = s.cyc := by
  obtain ⟨p, h⟩ := modify_eq_setP s op v
  rw [h, setP_cyc]

/-- The instructions without a bus access have a stall; every other one has a bus access before anything else that
takes time. -/
theorem advance_sequence_suspends {i : Instr} {s : State} (hb : i.mnemonic ≠ .brk) (hc : s.cyc = 0) :
    (advance (sequenceOf i.slot) Tmp.start s).seq ≠ .idle := by
  by_cases hr : i.mnemonic.isRegisterOnly = true
  · have hs : sequenceOf i.slot = [.operate i.mnemonic, .stall 2] := by
      cases i <;> first | exact absurd hr Bool.false_ne_true | rfl
    rw [hs]
    exact afterStall_suspends (s := operate i.mnemonic s.latch s) (Nat.le_refl 2) (by simp [hc]) _ _ _
  by_cases ha : i.mode = .acc
  · have hs : sequenceOf i.slot = [.modifyA i.mnemonic, .stall 2] := by
      cases i <;> first | (cases ha; done) | rfl
    rw [hs]
    exact afterStall_suspends (s := (modify i.mnemonic s.a s).2.setA _) (Nat.le_refl 2) (by simp [hc]) _ _ _
  · cases i <;> first
      | exact absurd rfl hb
      | exact absurd rfl hr
      | exact absurd rfl ha
      | exact Seq.noConfusion

/-! ## A step is its ticks -/

/-- BRK's sequence ends in its decode tick, and nothing is fetched after it (40_clock_step_sequencer.md R110). -/
theorem step_eq_tick_of_brk {s : State} (hh : s.halted = false) (hi : s.seq = .idle)
    (hd : s.fetched.decoded = some .brk) : step s = .next (tick s) := by
  obtain ⟨-, he⟩ := delivered_of_decoded _ _ hd
  have ht : tick s = (s.fetched.setCyc 0).halt.setSeq .idle := tick_decode hh hi he
  have hq : (s.fetched.setCyc 0).halt.setSeq .idle = (s.fetched.setCyc 0).halt := by
    rw [← hi, ← fetched_seq]
    rfl
  rw [step_eq_retire hh hi hd rfl, ht, hq]
  rfl

/-- Ticking an instruction from its boundary to its end gives its sequence run straight, and the next opcode fetch. -/
theorem ticksAfter_direct {s u : State} {i : Instr} (hh : s.halted = false) (hi : s.seq = .idle)
    (hd : s.fetched.decoded = some i) (hb : i.mnemonic ≠ .brk)
    (hu : direct (sequenceOf i.slot) Tmp.start (s.fetched.setCyc 0) = u) : ticksAfter (u.ticks - s.ticks) s = u.retire := by
  have htick : tick s = advance (sequenceOf i.slot) Tmp.start (s.fetched.setCyc 0) :=
    tick_decode hh hi (delivered_of_decoded _ _ hd).2
  have hruns := runs (sequenceOf i.slot) Tmp.start (s.fetched.setCyc 0) (completes_sequenceOf hb) (by simpa using hh)
    (by simpa using hi)
  obtain ⟨hhalt, hidle, hle, hat, hsus⟩ := hruns
  rw [hu] at hhalt hidle hle hat hsus
  have hne : u.ticks ≠ (s.fetched.setCyc 0).ticks := fun h =>
    advance_sequence_suspends hb rfl (hat h ▸ hidle)
  obtain ⟨-, hrest⟩ := hsus (by omega)
  have hk : u.ticks - s.ticks = (u.ticks - (s.fetched.setCyc 0).ticks) + 1 := by
    simp only [setCyc_ticks, fetched_ticks] at hle hne ⊢
    omega
  rw [hk, ticksAfter, htick, hrest]
  simp [retire, hhalt]

/-- The one-tick steps. -/
theorem ticksAfter_of_step_eq_tick {s t : State} (h : step s = .next (tick s)) (ht : step s = .next t) :
    ticksAfter (t.ticks - s.ticks) s = t := by
  rw [h] at ht
  cases ht
  rw [tick_ticks, Nat.add_sub_cancel_left]
  rfl

end Sys2Proof.Machine

section

open Sys2Proof Sys2Proof.Machine

/-- Settles O12: away from a boundary, over an illegal opcode and at BRK a step is one tick; every other instruction is
its sequence, ticked from suspension to suspension. -/
theorem stepIsItsTicks : Obligations.StepIsItsTicks := by
  intro s t ht
  by_cases hone : s.halted = true ∨ s.seq ≠ .idle ∨ s.fetched.decoded = none
  · exact ticksAfter_of_step_eq_tick (step_eq_tick hone) ht
  obtain ⟨hh, hi, hn⟩ : s.halted = false ∧ s.seq = .idle ∧ s.fetched.decoded ≠ none := by simpa using hone
  obtain ⟨i, hd⟩ := Option.ne_none_iff_exists'.mp hn
  by_cases hb : i.mnemonic = .brk
  · have hi' : i = .brk := by cases i <;> first | rfl | cases hb
    subst hi'
    exact ticksAfter_of_step_eq_tick (step_eq_tick_of_brk hh hi hd) ht
  · have he := exec_straight (s := s.fetched.setCyc 0) (delivered_of_decoded _ _ hd).1 hb
    rw [step_eq_retire hh hi hd he] at ht
    cases ht
    rw [retire_ticks]
    exact ticksAfter_direct hh hi hd hb rfl

end

/-! PROOFS, 10_state.md: the invariants of the state (R31) along ticks and steps, the bits of P and the windows no step
changes (R18, R19), halting (R22), power-on (R33) and the host's accessors (R32). What a micro-step can do is said once
(`advance_cons`), then what a tick can do (`tick_cases`); a step is its ticks (`stepIsItsTicks`), so what every tick keeps
every step keeps (`step_keeps`). -/

namespace Sys2Proof.Machine

open State

/-! ## Bits 4 and 5 of P and the windows -/

/-- `t` has the bit 4 of P and the windows of `s`, and bit 5 of P if `s` has it (10_state.md R18, R19, 20_memory.md
R45). -/
structure Kept (s t : State) : Prop where
  b : t.flag .b = s.flag .b
  u : s.flag .u = true → t.flag .u = true
  devices : t.devices = s.devices

namespace Kept

theorem of_eq {s t : State} (hp : t.p = s.p) (hd : t.devices = s.devices) : Kept s t := by
  have hf : ∀ f, t.flag f = s.flag f := fun f => by simp [flag, hp]
  exact ⟨hf .b, fun h => (hf .u).trans h, hd⟩

theorem refl (s : State) : Kept s s := of_eq rfl rfl

theorem trans {r s t : State} (h : Kept r s) (k : Kept s t) : Kept r t :=
  ⟨k.b.trans h.b, fun hu => k.u (h.u hu), k.devices.trans h.devices⟩

variable (s : State)

theorem setFlag {f : Flag} (hb : .b ≠ f) (hu : .u ≠ f) (v : Bool) : Kept s (s.setFlag f v) := by
  refine ⟨?_, fun h => ?_, by simp⟩
  · rw [setFlag_flag, if_neg hb]
  · rwa [setFlag_flag, if_neg hu]

theorem setNZ (v : Byte) : Kept s (s.setNZ v) :=
  (setFlag s (by decide) (by decide) _).trans (setFlag _ (by decide) (by decide) _)

theorem restoreStatus (v : Byte) : Kept s (s.restoreStatus v) :=
  ⟨by simp [restoreStatus_flag], fun _ => by simp [restoreStatus_flag], by simp⟩

theorem addWithCarry (m : Byte) : Kept s (s.addWithCarry m) :=
  ⟨by simp [addWithCarry_flag], fun h => by simp [addWithCarry_flag, h], by simp⟩

theorem compare (r m : Byte) : Kept s (s.compare r m) :=
  ⟨by simp [compare_flag], fun h => by simp [compare_flag, h], by simp⟩

theorem bitTest (m : Byte) : Kept s (s.bitTest m) :=
  ⟨by simp [bitTest_flag], fun h => by simp [bitTest_flag, h], by simp⟩

/-- N and Z are all of P and the windows that a load, transfer, increment or logic operation writes. -/
theorem of_setNZ {s t : State} {v : Byte} (hp : t.p = (s.setNZ v).p) (hd : t.devices = s.devices) : Kept s t :=
  (setNZ s v).trans (of_eq hp (by simpa using hd))

theorem operate (op : Mnemonic) (v : Byte) : Kept s (operate op v s) := by
  cases op with
  | lda | ldx | ldy | pla | and | ora | eor | tsx | tax | tay | txa | tya | inx | iny | dex | dey =>
    exact of_setNZ rfl rfl
  | adc | sbc => exact addWithCarry s _
  | cmp | cpx | cpy => exact compare s _ v
  | bit => exact bitTest s v
  | plp | rti => exact restoreStatus s v
  | clc | sec | cli | sei | clv | cld | sed => exact setFlag s (by decide) (by decide) _
  | txs | nop | sta | stx | sty | pha | php | inc | dec | asl | lsr | rol | ror | bcc | bcs | beq | bne | bmi | bpl
    | bvc | bvs | jmp | jsr | rts | brk => exact of_eq rfl rfl

theorem modify (op : Mnemonic) (v : Byte) : Kept s (modify op v s).2 := by
  cases op with
  | inc | dec => exact setNZ s _
  | asl | lsr | rol | ror => exact (setFlag s (f := .c) (by decide) (by decide) _).trans (setNZ _ _)
  | _ => exact refl s

end Kept

/-! ## What one micro-step can do -/

/-- What a micro-step does to the state `s` within its tick: memory stays, only `halt` halts, and `extra` is cleared by a
`Stall`, counted up by an indexed mode, and otherwise left (10_state.md R22, R25). -/
structure MicroEffect (m : Micro) (s u : State) : Prop where
  kept : Kept s u
  mem : u.mem = s.mem
  halted : m ≠ .halt → u.halted = s.halted
  extra : u.extra = 0 ∨ endsInStall [m] = false ∧ (m.countsCrossing = true ∨ u.extra = s.extra)

/-- The two ways `Advance()` treats the micro-step in front: it goes on to the rest with no bus assertion, or it suspends
with the rest, after some micro-steps that neither halt nor count a crossing, still to run. -/
inductive AdvanceCase (m : Micro) (rest : List Micro) (t : Tmp) (s : State) : State → Prop
  | goesOn (u : State) (t' : Tmp) (effect : MicroEffect m s u) (pending : u.pending = s.pending) :
    AdvanceCase m rest t s (advance rest t' u)
  | suspends (u : State) (front : List Micro) (effect : MicroEffect m s u)
    (pendingRead : s.pending = false → u.pending = true → u.bus.dir = .read)
    (quiet : ∀ x ∈ front, x ≠ .halt ∧ x.countsCrossing = false) :
    AdvanceCase m rest t s (u.setSeq (.exec (front ++ rest) t))

section
variable (m : Micro) (rest : List Micro) (t : Tmp) (s : State)

@[simp] theorem operate_extra (op : Mnemonic) (v : Byte) : (operate op v s).extra = s.extra := by cases op <;> rfl
@[simp] theorem operate_mem (op : Mnemonic) (v : Byte) : (operate op v s).mem = s.mem := by cases op <;> rfl
@[simp] theorem operate_pending (op : Mnemonic) (v : Byte) : (operate op v s).pending = s.pending := by cases op <;> rfl

@[simp] theorem modify_pending (op : Mnemonic) (v : Byte) : (modify op v s).2.pending = s.pending := by
  obtain ⟨p, h⟩ := modify_eq_setP s op v
  rw [h, setP_pending]

theorem takeBranch_eq : ∃ n, takeBranch t s = (s.setExtra n).setPc t.ea := by
  unfold takeBranch
  split
  · exact ⟨_, rfl⟩
  · exact ⟨s.extra, rfl⟩

variable {m s}

/-- A micro-step that writes none of P, the windows, memory, `halted` and `extra`. -/
theorem MicroEffect.of_eq {u : State} (hp : u.p = s.p) (hd : u.devices = s.devices) (hm : u.mem = s.mem)
    (hh : u.halted = s.halted) (he : u.extra = s.extra) (hs : endsInStall [m] = false) : MicroEffect m s u :=
  ⟨Kept.of_eq hp hd, hm, fun _ => hh, .inr ⟨hs, .inr he⟩⟩

/-- A micro-step that only moves values between the latch and the temporaries. -/
theorem AdvanceCase.temporary (t' : Tmp) (hs : endsInStall [m] = false) :
    AdvanceCase m rest t s (advance rest t' s) :=
  .goesOn s t' (.of_eq rfl rfl rfl rfl rfl hs) rfl

/-- A micro-step that suspends with the rest still to run. -/
theorem AdvanceCase.asserts {u : State} (effect : MicroEffect m s u)
    (pendingRead : s.pending = false → u.pending = true → u.bus.dir = .read) :
    AdvanceCase m rest t s (u.setSeq (.exec rest t)) :=
  .suspends u [] effect pendingRead (by simp)

/-- The end of a branch or a `Stall`: it goes on if no tick remains, else it suspends (40_clock_step_sequencer.md R102). -/
theorem AdvanceCase.afterStall (n : Nat) {u : State} (hk : Kept s u) (hm : u.mem = s.mem) (hh : u.halted = s.halted)
    (hp : u.pending = s.pending) : AdvanceCase m rest t s (afterStall n rest t u (advance rest t)) := by
  have effect : MicroEffect m s (u.settle n) :=
    ⟨hk.trans (.of_eq (by simp) (by simp)), by simpa, fun _ => by simpa, .inl (by simp)⟩
  unfold Machine.afterStall
  split
  case h_1 => exact .goesOn _ t effect (by simpa)
  case h_2 k _ =>
    refine .suspends _ (List.replicate k .suspend) effect (fun h h' => ?_) (fun x hx => ?_)
    · simp [hp, h] at h'
    · obtain ⟨-, rfl⟩ := List.mem_replicate.mp hx
      decide

variable (m s)

/-- The indexed addition of a mode (41_addressing_modes.md R133) as a micro-step that counts a crossing. -/
theorem MicroEffect.indexed (hm : m.countsCrossing = true) (hs : endsInStall [m] = false) (b : Word) (i : Byte) :
    MicroEffect m s (s.indexed b i).2 :=
  have h := Untouched.indexed s b i
  ⟨.of_eq h.p h.devices, h.mem, fun _ => h.halted, .inr ⟨hs, .inl hm⟩⟩

/-- A read-modify-write's function as a micro-step. -/
theorem MicroEffect.modify (hs : endsInStall [m] = false) (op : Mnemonic) (v : Byte) :
    MicroEffect m s (modify op v s).2 := by
  obtain ⟨p, h⟩ := modify_eq_setP s op v
  exact ⟨Kept.modify s op v, by rw [h, setP_mem], fun _ => by rw [h, setP_halted],
    .inr ⟨hs, .inr (by rw [h, setP_extra])⟩⟩

/-- Everything `Advance()` can do with the micro-step in front (40_clock_step_sequencer.md R92, R109). -/
theorem advance_cons : AdvanceCase m rest t s (advance (m :: rest) t s) := by
  cases m with
  | keepLow | zeroPage | zeroPageX | zeroPageY | absolute | pointerZp | pointerZpX | pointerAbs | relative | source _
  | returnHigh | returnLow => exact .temporary rest t _ rfl
  | immediate | jump | resume _ | loadVector => exact .goesOn _ _ (.of_eq rfl rfl rfl rfl rfl rfl) rfl
  | absoluteX | absoluteY => exact .goesOn _ _ (.indexed _ s rfl rfl _ _) (by simp)
  | operate op =>
    exact .goesOn _ t ⟨Kept.operate s op _, by simp, by simp, .inr ⟨rfl, .inr (by simp)⟩⟩ (by simp)
  | modify op => exact .goesOn _ _ (.modify _ s rfl op _) (by simp)
  | modifyA op =>
    obtain ⟨hk, hm, hh, he⟩ := MicroEffect.modify (.modifyA op) s rfl op s.a
    exact .goesOn ((Machine.modify op s.a s).2.setA _) t ⟨hk.trans (.of_eq rfl rfl), hm, hh, he⟩ (by simp)
  | halt => exact .goesOn s.halt t ⟨.of_eq rfl rfl, rfl, fun h => absurd rfl h, .inr ⟨rfl, .inr rfl⟩⟩ rfl
  | branch op =>
    obtain ⟨n, h⟩ := takeBranch_eq t s
    simp only [advance]
    split
    · exact .afterStall rest t 3 (by rw [h]; exact .of_eq rfl rfl) (by rw [h]; rfl) (by simp) (by rw [h]; rfl)
    · exact .afterStall rest t 2 (.refl s) rfl rfl rfl
  | stall n => exact .afterStall rest t n (.refl s) rfl rfl rfl
  | fetch8 | readPtr | readPtrNext | read | pull | readAt _ =>
    exact .asserts rest t (.of_eq rfl rfl rfl rfl rfl rfl) (fun _ _ => rfl)
  | write | push | suspend =>
    exact .asserts rest t (.of_eq rfl rfl rfl rfl rfl rfl) (fun h h' => absurd (h.symm.trans h') Bool.false_ne_true)
  | resetSequence =>
    exact .suspends _ resetRest (.of_eq rfl rfl rfl rfl rfl rfl) (fun _ _ => rfl) (by decide)

end

/-! ## What `Advance()` can do -/

/-- Running a sequence keeps bits 4 and 5 of P and the windows. -/
theorem Kept.advance (rest : List Micro) (t : Tmp) (s : State) : Kept s (advance rest t s) := by
  induction rest generalizing t s with
  | nil => exact .of_eq rfl rfl
  | cons m rest ih =>
    have h := advance_cons m rest t s
    generalize Machine.advance (m :: rest) t s = r at h
    cases h with
    | goesOn u t' effect => exact effect.kept.trans (ih t' u)
    | suspends u front effect => exact effect.kept.trans (.of_eq rfl rfl)

theorem endsInStall_append (front : List Micro) {rest : List Micro} (h : endsInStall rest = true) :
    endsInStall (front ++ rest) = true := by
  have hne : rest ≠ [] := fun hn => by rw [hn] at h; cases h
  rwa [endsInStall, List.getLast?_append_of_ne_nil _ hne]

theorem endsInStall_tail {m : Micro} {rest : List Micro} (h : endsInStall (m :: rest) = true) (hr : rest ≠ []) :
    endsInStall rest = true := by
  obtain ⟨x, xs, rfl⟩ := List.exists_cons_of_ne_nil hr
  rwa [endsInStall, List.getLast?_cons_cons] at h

namespace SuspendedOk

variable {m : Micro} {front rest : List Micro} {e : Nat}

/-- What the first micro-step does to `extra` keeps the rest orderly. -/
theorem tail {s u : State} (h : SuspendedOk (m :: rest) s.extra) (effect : MicroEffect m s u) :
    SuspendedOk rest u.extra := by
  obtain ⟨hh, hs⟩ := h
  refine ⟨fun hx => hh (List.mem_cons_of_mem _ hx), ?_⟩
  rcases hs with hs | ⟨he, hc⟩
  · rcases effect.extra with hu | ⟨hm, -⟩
    · by_cases hr : rest = []
      · exact .inr ⟨hu, by simp [hr]⟩
      · exact .inl (endsInStall_tail hs hr)
    · exact .inl (endsInStall_tail hs fun hr => by rw [hr, hm] at hs; cases hs)
  · have hrest : ∀ x ∈ rest, x.countsCrossing = false := fun x hx => hc x (List.mem_cons_of_mem _ hx)
    rcases effect.extra with hu | ⟨-, hm | hu⟩
    · exact .inr ⟨hu, hrest⟩
    · rw [hc m List.mem_cons_self] at hm
      cases hm
    · exact .inr ⟨hu.trans he, hrest⟩

/-- Micro-steps that neither halt nor count a crossing may stand in front. -/
theorem append (h : SuspendedOk rest e) (quiet : ∀ x ∈ front, x ≠ .halt ∧ x.countsCrossing = false) :
    SuspendedOk (front ++ rest) e := by
  obtain ⟨hh, hs⟩ := h
  refine ⟨fun hx => ?_, hs.imp (endsInStall_append front) fun ⟨he, hc⟩ => ⟨he, fun x hx => ?_⟩⟩
  · rcases List.mem_append.mp hx with hx | hx
    · exact (quiet _ hx).1 rfl
    · exact hh hx
  · rcases List.mem_append.mp hx with hx | hx
    · exact (quiet x hx).2
    · exact hc x hx

end SuspendedOk

/-- What an orderly sequence leaves when `Advance()` returns, begun with no read pending: the state has not halted, memory
is as it was, and (c), (d) and the suspended clause of the invariants hold. -/
structure Advanced (s r : State) : Prop where
  halted : r.halted = s.halted
  mem : r.mem = s.mem
  pendingRead : r.pending = true → r.bus.dir = .read
  idleSettled : r.seq = .idle → r.extra = 0
  suspended : ∀ rest t, r.seq = .exec rest t → SuspendedOk rest r.extra

theorem advanced {rest : List Micro} {t : Tmp} {s : State} (hp : s.pending = false) (ho : SuspendedOk rest s.extra) :
    Advanced s (advance rest t s) := by
  induction rest generalizing t s with
  | nil =>
    have he : s.extra = 0 := ho.2.elim (fun h => by cases h) And.left
    exact ⟨rfl, rfl, fun h => absurd (hp.symm.trans h) Bool.false_ne_true, fun _ => he, nofun⟩
  | cons m rest ih =>
    have hm : m ≠ .halt := fun h => ho.1 (h ▸ List.mem_cons_self)
    have h := advance_cons m rest t s
    generalize advance (m :: rest) t s = r at h
    cases h with
    | goesOn u t' effect pending =>
      obtain ⟨hhalted, hmem, hread, hidle, hsus⟩ := ih (t := t') (pending.trans hp) (ho.tail effect)
      exact ⟨hhalted.trans (effect.halted hm), hmem.trans effect.mem, hread, hidle, hsus⟩
    | suspends u front effect pendingRead quiet =>
      refine ⟨effect.halted hm, effect.mem, pendingRead hp, nofun, fun rest' t' h => ?_⟩
      cases h
      exact (ho.tail effect).append quiet

/-- The sequence of every entry but BRK's does not halt and ends in a `Stall` (40_clock_step_sequencer.md R94, R110). -/
theorem suspendedOk_sequenceOf {e : Entry} (h : e.mnemonic ≠ .brk) (n : Nat) : SuspendedOk (sequenceOf e) n := by
  refine ⟨fun hx => absurd (completes_sequenceOf h _ hx) Bool.false_ne_true, .inl (endsInStall_append _ ?_)⟩
  obtain ⟨op, mode, total⟩ := e
  cases op with
  | brk => exact absurd rfl h
  | asl | lsr | rol | ror => simp only [operationSteps]; split <;> rfl
  | _ => rfl

/-! ## What a tick can do -/

/-- The five kinds of tick: of a halted core, over an illegal opcode, the decode tick of an instruction, and of a sequence
in flight that ends or is suspended again (40_clock_step_sequencer.md R92). -/
inductive TickCase (s : State) : State → Prop
  | halted (hh : s.halted = true) : TickCase s s.beginTick
  | illegal (hh : s.halted = false) (hi : s.seq = .idle) (hd : s.fetched.decoded = none) :
    TickCase s s.fetched.skipIllegal
  | decode (hh : s.halted = false) (hi : s.seq = .idle) (i : Instr) (hd : s.fetched.decoded = some i) :
    TickCase s (advance (sequenceOf i.slot) Tmp.start (s.fetched.setCyc 0))
  | ends (hh : s.halted = false) (rest : List Micro) (t : Tmp) (hs : s.seq = .exec rest t)
    (hi : (advance rest t s.nextTick).seq = .idle) : TickCase s (advance rest t s.nextTick).issueFetch
  | suspends (hh : s.halted = false) (rest : List Micro) (t : Tmp) (hs : s.seq = .exec rest t)
    (hi : (advance rest t s.nextTick).seq ≠ .idle) : TickCase s (advance rest t s.nextTick)

theorem tick_cases (s : State) : TickCase s (tick s) := by
  cases hh : s.halted with
  | true => rw [tick_halted hh]; exact .halted hh
  | false =>
    cases hi : s.seq with
    | idle =>
      cases hd : s.fetched.decoded with
      | none => rw [tick_illegal hh hi (table_eq_none_of_decoded hd)]; exact .illegal hh hi hd
      | some i =>
        rw [tick_decode hh hi (delivered_of_decoded _ _ hd).2]
        exact .decode hh hi i hd
    | exec rest t =>
      have hs : s.setSeq (.exec rest t) = s := by rw [← hi]; rfl
      have ht := tick_suspended s rest t hh
      rw [hs] at ht
      cases hq : (advance rest t s.nextTick).seq with
      | idle => rw [ht, hq]; exact .ends hh rest t hi hq
      | exec rest' t' => rw [ht, hq]; exact .suspends hh rest t hi (by simp [hq])

namespace Kept

variable (s : State)

theorem fetched : Kept s s.fetched := .of_eq (by simp [State.fetched]) (by simp [State.fetched])
theorem skipIllegal : Kept s s.skipIllegal := .of_eq rfl rfl
theorem issueFetch : Kept s s.issueFetch := .of_eq rfl rfl
theorem nextTick : Kept s s.nextTick := .of_eq (by simp) (by simp)
theorem setCyc (n : Nat) : Kept s (s.setCyc n) := .of_eq rfl rfl

end Kept

/-- Every tick keeps bits 4 and 5 of P and the windows. -/
theorem TickCase.kept {s r : State} (h : TickCase s r) : Kept s r := by
  cases h with
  | halted => exact .of_eq (by simp) (by simp)
  | illegal => exact (Kept.fetched s).trans (.skipIllegal _)
  | decode => exact ((Kept.fetched s).trans (.setCyc _ 0)).trans (.advance _ _ _)
  | suspends hh rest t => exact (Kept.nextTick s).trans (.advance rest t _)
  | ends hh rest t => exact ((Kept.nextTick s).trans (.advance rest t _)).trans (.issueFetch _)

/-! ## The invariants along a tick -/

section
variable {s r : State}

/-- An instruction boundary: the opcode fetch just asserted is outstanding. -/
theorem inv_issueFetch (hh : r.halted = false) (hi : r.seq = .idle) (he : r.extra = 0) (hu : r.flag .u = true)
    (hw : r.mem.wf = true) : r.issueFetch.Inv where
  haltedQuiet h := absurd (hh.symm.trans h) Bool.false_ne_true
  fetchOutstanding _ _ := ⟨rfl, rfl, (BitVec.add_sub_cancel r.pc 1).symm⟩
  pendingRead _ := rfl
  idleSettled _ := he
  unusedSet := hu
  memory := hw
  suspended _ _ h := by cases hi.symm.trans h

/-- A tick that leaves the sequence suspended. -/
theorem Advanced.inv (h : Advanced s r) (hh : s.halted = false) (hi : r.seq ≠ .idle) (hu : r.flag .u = true)
    (hw : s.mem.wf = true) : r.Inv where
  haltedQuiet h' := absurd ((h.halted.trans hh).symm.trans h') Bool.false_ne_true
  fetchOutstanding _ h' := absurd h' hi
  pendingRead := h.pendingRead
  idleSettled := h.idleSettled
  unusedSet := hu
  memory := h.mem ▸ hw
  suspended := h.suspended

/-- BRK's sequence ends in its decode tick (40_clock_step_sequencer.md R110). -/
theorem advance_brk : advance (sequenceOf Instr.brk.slot) Tmp.start r = r.halt.setSeq .idle := rfl

/-- The decode tick of BRK: halted, Idle and nothing pending. -/
theorem inv_halt (hp : r.pending = false) (he : r.extra = 0) (hu : r.flag .u = true) (hw : r.mem.wf = true) :
    (r.halt.setSeq .idle).Inv where
  haltedQuiet _ := ⟨rfl, hp⟩
  fetchOutstanding h := by cases h
  pendingRead h := absurd (hp.symm.trans h) Bool.false_ne_true
  idleSettled _ := he
  unusedSet := hu
  memory := hw
  suspended := nofun

/-- The device phase of a halted core. -/
theorem inv_beginTick (h : s.Inv) (hh : s.halted = true) : s.beginTick.Inv := by
  obtain ⟨hi, hp⟩ := h.haltedQuiet hh
  exact {
    haltedQuiet := fun _ => by simp [hi, hp]
    fetchOutstanding := fun h' => by simp [hh] at h'
    pendingRead := fun h' => by simp [hp] at h'
    idleSettled := fun _ => by simpa using h.idleSettled hi
    unusedSet := by simpa [flag] using h.unusedSet
    memory := wf_beginTick h.memory
    suspended := fun _ _ h' => by simp [hi] at h' }

theorem eq_brk_of_mnemonic {i : Instr} (h : i.mnemonic = .brk) : i = .brk := by
  cases i <;> first | rfl | cases h

/-- Every tick keeps the invariants. -/
theorem TickCase.inv (hinv : s.Inv) (h : TickCase s r) : r.Inv := by
  have hu : r.flag .u = true := h.kept.u hinv.unusedSet
  have huf : s.fetched.flag .u = true := (Kept.fetched s).u hinv.unusedSet
  have hwf : s.fetched.mem.wf = true := wf_capture (wf_beginTick hinv.memory)
  have hef : s.seq = .idle → s.fetched.extra = 0 := fun hi => by simpa [fetched] using hinv.idleSettled hi
  have hpf : s.fetched.pending = false := capture_pending _
  cases h with
  | halted hh => exact inv_beginTick hinv hh
  | illegal hh hi =>
    exact inv_issueFetch (r := s.fetched.diag _) (by simpa) (by simpa) (hef hi) huf hwf
  | decode hh hi i =>
    by_cases hb : i.mnemonic = .brk
    · obtain rfl := eq_brk_of_mnemonic hb
      exact advance_brk ▸ inv_halt (r := s.fetched.setCyc 0) hpf (hef hi) huf hwf
    · exact (advanced (s := s.fetched.setCyc 0) hpf (suspendedOk_sequenceOf hb _)).inv (by simpa)
        (advance_sequence_suspends hb rfl) hu hwf
  | ends hh rest t hs hi =>
    have ha := advanced (s := s.nextTick) (t := t) (by simp) (by simpa using hinv.suspended rest t hs)
    exact inv_issueFetch (by simp [ha.halted, hh]) hi (ha.idleSettled hi) hu (ha.mem ▸ wf_nextTick hinv.memory)
  | suspends hh rest t hs hi =>
    have ha := advanced (s := s.nextTick) (t := t) (by simp) (by simpa using hinv.suspended rest t hs)
    exact ha.inv (by simpa) hi hu (wf_nextTick hinv.memory)

/-! ## From every tick to every step -/

/-- What every tick keeps, any number of ticks keeps. -/
theorem ticksAfter_keeps {P : State → Prop} (hP : ∀ s, P s → P (tick s)) (n : Nat) (h : P s) : P (ticksAfter n s) := by
  induction n generalizing s with
  | zero => exact h
  | succ n ih => exact ih (hP s h)

/-- A step is its ticks (20_memory.md R55), so what every tick keeps a step keeps. -/
theorem step_keeps {P : State → Prop} (hP : ∀ s, P s → P (tick s)) (h : P s) (hs : step s = .next r) : P r :=
  stepIsItsTicks s r hs ▸ ticksAfter_keeps hP _ h

/-! ## Halting -/

@[simp] theorem issueFetch_halted : s.issueFetch.halted = s.halted := rfl
@[simp] theorem skipIllegal_halted : s.skipIllegal.halted = s.halted := rfl

/-- A tick halts a running core only in the decode tick of BRK (47_flags_system.md R226, 60_exceptions.md R243). -/
theorem TickCase.halts (hinv : s.Inv) (hh : s.halted = false) (h : TickCase s r) (hr : r.halted = true) :
    s.seq = .idle ∧ s.fetched.decoded = some .brk := by
  cases h with
  | halted hh' => cases hh.symm.trans hh'
  | illegal => simp [hh] at hr
  | decode _ hi i hd =>
    refine ⟨hi, ?_⟩
    by_cases hb : i.mnemonic = .brk
    · rwa [← eq_brk_of_mnemonic hb]
    · have ha := advanced (s := s.fetched.setCyc 0) (t := .start) (capture_pending s.beginTick)
        (suspendedOk_sequenceOf (e := i.slot) hb _)
      simp [ha.halted, hh] at hr
  | ends _ rest t hs | suspends _ rest t hs =>
    have ha := advanced (s := s.nextTick) (t := t) (by simp) (by simpa using hinv.suspended rest t hs)
    simp [ha.halted, hh] at hr

/-- Every instruction but BRK leaves a running core running. -/
theorem exec_running {i : Instr} {s t : State} (hd : s.decoded = some i) (hb : i.mnemonic ≠ .brk)
    (hh : s.halted = false) (hi : s.seq = .idle) (he : exec i (s.setCyc 0) = .next t) : t.halted = false := by
  rw [exec_straight (s := s.setCyc 0) (delivered_of_decoded _ _ hd).1 hb] at he
  cases he
  exact (runs _ _ (s.setCyc 0) (completes_sequenceOf hb) hh hi).halted

/-- Every meaning answers a next state (60_exceptions.md R234). -/
theorem exec_answers (i : Instr) (s : State) : ∃ t, exec i s = .next t := by
  cases i <;> exact ⟨_, rfl⟩

/-! ## Decoding the bytes in memory -/

theorem wordOf_highByte_lowByte (w : Word) : wordOf (highByte w) (lowByte w) = w := by
  apply BitVec.eq_of_toNat_eq
  simp only [wordOf, highByte, lowByte, BitVec.toNat_ofNat]
  omega

theorem toInt_ofInt_offset {o : Int} (h : OffsetInRange o) : (BitVec.ofInt 8 o).toInt = o := by
  rw [BitVec.toInt_ofInt]
  exact Int.bmod_eq_of_le (by omega) (by omega)

/-- The decoder reads back an encoding, whatever bytes follow (30_encoding.md R70 to R73). -/
theorem decode_encode {i : Instr} (h : i.WellFormed = true) (rest : List Byte) :
    decode (encode i ++ rest) = .ok (i, rest) := by
  cases i with
  | bcc o | bcs o | beq o | bne o | bmi o | bpl o | bvc o | bvs o =>
    have ho : (BitVec.ofInt 8 o).toInt = o := toInt_ofInt_offset (of_decide_eq_true h)
    change Except.ok (_, rest) = _
    rw [ho]
  | ldaAbs w | ldxAbs w | ldyAbs w | staAbs w | stxAbs w | styAbs w | adcAbs w | sbcAbs w | andAbs w | oraAbs w | eorAbs w
  | cmpAbs w | cpxAbs w | cpyAbs w | bitAbs w | incAbs w | decAbs w | aslAbs w | lsrAbs w | rolAbs w | rorAbs w
  | ldaAbx w | ldyAbx w | staAbx w | adcAbx w | sbcAbx w | andAbx w | oraAbx w | eorAbx w | cmpAbx w | incAbx w | decAbx w
  | aslAbx w | lsrAbx w | rolAbx w | rorAbx w | ldaAby w | ldxAby w | staAby w | adcAby w | sbcAby w | andAby w | oraAby w
  | eorAby w | cmpAby w | jmpAbs w | jmpInd w | jsr w =>
    change Except.ok (_, rest) = _
    rw [wordOf_highByte_lowByte w]
  | _ => rfl

theorem encode_length_le (i : Instr) : (encode i).length ≤ 3 := by
  cases i <;> exact Nat.le_of_ble_eq_true rfl

theorem serve_of_backed {a : Word} (h : s.backed a = true) (v : Byte) : s.serve v a = s.mem.read a := by
  simp [serve, h]

/-- At a boundary the three fetched bytes are the backed bytes in memory from PC - 1 on (10_state.md R31 (b)). -/
theorem incoming_fetched (hinv : s.Inv) (hh : s.halted = false) (hi : s.seq = .idle) {k : Nat} (hk : k < 3)
    (hb : s.backed (s.pc - 1 + BitVec.ofNat 16 k) = true) :
    s.fetched.incoming[k]? = some (s.mem.read (s.pc - 1 + BitVec.ofNat 16 k)) := by
  obtain ⟨hpending, hdir, haddr⟩ := hinv.fetchOutstanding hh hi
  have hserve : ∀ v a, s.fetched.serve v a = s.serve v a :=
    serve_congr s (by simp [fetched]) (by simp [fetched, beginTick_mem_of_read, hdir])
  have hpc : s.fetched.pc = s.pc := by simp [fetched]
  have hlatch : s.fetched.latch = s.serve s.bus.value (s.pc - 1) := by
    simp [fetched, capture_latch, hpending, beginTick, devicePhase_read, hdir, haddr]
  have hone : s.pc - 1 + BitVec.ofNat 16 1 = s.pc := BitVec.sub_add_cancel s.pc 1
  have htwo : s.pc - 1 + BitVec.ofNat 16 2 = s.pc + 1 := by rw [← add_one_one, BitVec.sub_add_cancel]
  simp only [incoming, hserve, hpc, hlatch]
  match k, hk with
  | 0, _ => rw [BitVec.add_zero] at hb ⊢; exact congrArg some (serve_of_backed hb _)
  | 1, _ => rw [hone] at hb ⊢; exact congrArg some (serve_of_backed hb _)
  | 2, _ => rw [htwo] at hb ⊢; exact congrArg some (serve_of_backed hb _)

theorem encode_prefix_incoming {i : Instr} (hinv : s.Inv) (hh : s.halted = false) (hi : s.seq = .idle)
    (hmem : ∀ (k : Nat) (b : Byte), (encode i)[k]? = some b →
      s.backed (s.pc - 1 + BitVec.ofNat 16 k) = true ∧ s.mem.read (s.pc - 1 + BitVec.ofNat 16 k) = b) :
    encode i <+: s.fetched.incoming := by
  refine List.prefix_iff_getElem?.mpr fun k hk => ?_
  obtain ⟨hb, hr⟩ := hmem k _ (List.getElem?_eq_getElem hk)
  rw [incoming_fetched hinv hh hi (by have := encode_length_le i; omega) hb, hr]

/-! ## Power-on -/

theorem inv_powerOn {c : PowerOn} (hw : Memory.wf c.mem = true) : (State.powerOn c).Inv where
  haltedQuiet := nofun
  fetchOutstanding _ h := by cases h
  pendingRead _ := rfl
  idleSettled h := by cases h
  unusedSet := by simp [flag, powerOn, Flag.bit]
  memory := hw
  suspended _ _ h := by cases h; exact ⟨by decide, .inr ⟨rfl, by decide⟩⟩

end

end Sys2Proof.Machine

section

open Sys2Proof Sys2Proof.Machine State

/-- Settles O14: each kind of tick leaves a state of one of four shapes, a boundary with its fetch outstanding, a
suspended orderly sequence, a core just halted, or a halted core one device phase later. -/
theorem invariantsKeptByTick : Obligations.InvariantsKeptByTick :=
  fun s h => (tick_cases s).inv h

/-- Settles O13: a step is its ticks, and each keeps the invariants. -/
theorem invariantsKeptByStep : Obligations.InvariantsKeptByStep :=
  fun _ _ h hs => step_keeps invariantsKeptByTick h hs

/-- Settles O16: a step is its ticks, and no micro-step writes bit 4 of P or a window, or clears bit 5. -/
theorem breakUnusedAndWindowsNeverChange : Obligations.BreakUnusedAndWindowsNeverChange := by
  intro s t hs
  have hk : Kept s t := step_keeps (fun u hu => hu.trans (tick_cases u).kept) (.refl s) hs
  exact ⟨hk.b, hk.u, hk.devices⟩

/-- Settles O11: a one-tick step halts as its tick does, and an instruction other than BRK leaves the core running. -/
theorem onlyBrkHalts : Obligations.OnlyBrkHalts := by
  intro s t hinv hh hs ht
  by_cases hone : s.halted = true ∨ s.seq ≠ .idle ∨ s.fetched.decoded = none
  · rw [step_eq_tick hone] at hs
    cases hs
    exact (tick_cases s).halts hinv hh ht
  obtain ⟨-, hi, hn⟩ : s.halted = false ∧ s.seq = .idle ∧ s.fetched.decoded ≠ none := by simpa using hone
  obtain ⟨i, hd⟩ := Option.ne_none_iff_exists'.mp hn
  refine ⟨hi, hd.trans ?_⟩
  by_cases hb : i.mnemonic = .brk
  · rw [eq_brk_of_mnemonic hb]
  obtain ⟨u, he⟩ := exec_answers i (s.fetched.setCyc 0)
  have hu : u.halted = false := exec_running hd hb (by simpa) (by simpa) he
  rw [step_eq_retire hh hi hd he] at hs
  cases hs
  simp [retire, hu] at ht

/-- Settles O7: the fetched bytes begin with the encoding in memory, so they decode to the instruction, and the step is
its meaning. -/
theorem stepRunsInstructionInMemory : Obligations.StepRunsInstructionInMemory := by
  intro s i hinv hh hi hwf hmem
  have hd : s.fetched.decoded = some i := by
    obtain ⟨rest, hr⟩ := encode_prefix_incoming hinv hh hi hmem
    simp [decoded, ← hr, decode_encode hwf]
  obtain ⟨t, he⟩ := exec_answers i (s.fetched.setCyc 0)
  exact ⟨hd, t, he, step_eq_retire hh hi hd he⟩

/-- Settles O10: the core step returns at once, so what is left of a tick is the device phase, which for a held read
writes `bus.value` alone. -/
theorem haltedCoreDoesNothing : Obligations.HaltedCoreDoesNothing := by
  intro s hh
  refine ⟨by simp [coreStep, hh], tick_halted hh, ?_, fun hd => ?_⟩
  · rw [step_eq_tick (.inl hh), tick_halted hh]
  · have hr : (s.setTicks (s.ticks + 1)).bus.dir = .read := hd
    exact ⟨s.serve s.bus.value s.bus.addr, by
      rw [beginTick, devicePhase_read _ hr, setTicks_bus, setTicks_serve]
      simp [setBus, setTicks, hd]⟩

/-- Settles O15: power-on leaves the reset sequence at its start, with the read of PC_INIT pending. -/
theorem invariantsAtPowerOn : Obligations.InvariantsAtPowerOn :=
  ⟨fun _ => inv_powerOn, inv_powerOn rfl⟩

/-- Settles O20: each accessor is `hostWrite` of one update, which the sequencer alone allows or refuses. -/
theorem hostRegisterAccess : Obligations.HostRegisterAccess := by
  refine ⟨fun s v hi => ?_, fun s v hi => ?_, fun s => rfl⟩
  · have h8 : BitVec.ofNat 8 (v % 256) = BitVec.ofNat 8 v := BitVec.eq_of_toNat_eq (by simp)
    have h16 : BitVec.ofNat 16 (v % 65536) = BitVec.ofNat 16 v := BitVec.eq_of_toNat_eq (by simp)
    rw [h8, h16]
    simp [hostWriteA, hostWriteX, hostWriteY, hostWritePc, hostWrite, hi, setA, setX, setY, setPc]
  · simp [hostWriteA, hostWriteX, hostWriteY, hostWritePc, hostWrite, hi]

/-- Settles O26: bit 7 of a byte is set from 128 on, and the byte 0 is the number 0. -/
theorem setNZWritesNAndZ : Obligations.SetNZWritesNAndZ := by
  intro s v f
  have hn : v.msb = decide (v.toNat ≥ 128) := BitVec.msb_eq_decide v
  have hz : decide (v = 0) = decide (v.toNat = 0) := by simp [← BitVec.toNat_inj]
  rw [setNZ_flag, hn, hz]

end

/-! PROOFS, 20_memory.md: what a device phase does with the record on the bus (R45), that it may be run again on a held
record (R47), accesses no device answers (R46), and reads over the bus after a write (R56). -/

namespace Sys2Proof.Machine

/-- Over canonical memory a read finds the last byte written to its address. -/
theorem Memory.read_write {m : Memory} (hm : m.wf = true) (a b : Word) (v : Byte) :
    (m.write a v).read b = if b = a then v else m.read b := by
  split
  · next h => rw [h, read_write_same hm]
  · next h => exact read_write_other h v

namespace State

/-! ## The device phase, by direction and by whether a device answers -/

section
variable {s : State}

theorem devicePhase_of_unbacked (hb : s.backed s.bus.addr = false) : s.devicePhase = s := by
  cases hd : s.bus.dir with
  | read =>
    rw [devicePhase_read s hd, serve, hb]
    rfl
  | write =>
    rw [devicePhase_write s hd, hb]
    rfl

theorem devicePhase_of_backed_read (hd : s.bus.dir = .read) (hb : s.backed s.bus.addr = true) :
    s.devicePhase = s.setBus ⟨.read, s.bus.addr, s.mem.read s.bus.addr⟩ := by
  rw [devicePhase_read s hd, serve_of_backed hb, ← hd]

theorem devicePhase_of_backed_write (hd : s.bus.dir = .write) (hb : s.backed s.bus.addr = true) :
    s.devicePhase = s.setMem (s.mem.write s.bus.addr s.bus.value) := by
  rw [devicePhase_write s hd, if_pos hb]

/-- A read published or a byte stored once is published or stored by the next device phase again (20_memory.md R47). -/
theorem devicePhase_devicePhase (hm : s.mem.wf = true) : s.devicePhase.devicePhase = s.devicePhase := by
  cases hb : s.backed s.bus.addr with
  | false => rw [devicePhase_of_unbacked hb, devicePhase_of_unbacked hb]
  | true =>
    have hb' : s.devicePhase.backed s.devicePhase.bus.addr = true := by
      rw [devicePhase_bus_addr, backed_congr s (devicePhase_devices s), hb]
    cases hd : s.bus.dir with
    | read =>
      rw [devicePhase_of_backed_read (s.devicePhase_bus_dir.trans hd) hb', devicePhase_of_backed_read hd hb]
      rfl
    | write =>
      rw [devicePhase_of_backed_write (s.devicePhase_bus_dir.trans hd) hb', devicePhase_of_backed_write hd hb]
      exact congrArg s.setMem (Memory.write_write hm _ _)

/-! ## Stall ticks after a write -/

/-- However long a write stays on the bus, the arrays are as its first tick left them (20_memory.md R47). -/
theorem suspends_memWrite_mem (hm : s.mem.wf = true) (n : Nat) (a : Word) (v : Byte) :
    (suspends n (s.memWrite a v)).mem = if s.backed a then s.mem.write a v else s.mem := by
  rw [suspends_mem_of_writeHeld n (writeHeld_memWrite hm a v), memWrite_mem]

theorem suspends_backed (n : Nat) (a : Word) : (suspends n s).backed a = s.backed a :=
  backed_congr s (suspends_devices n s) a

end

end State

/-! ## Accesses that leave the machine alone -/

theorem Untouched.memWrite_of_unbacked {s : State} {a : Word} (hb : s.backed a = false) (v : Byte) :
    Untouched s (s.memWrite a v) := by
  constructor <;> simp [hb]

theorem Untouched.frame {s t : State} (h : Untouched s t) : Frame [] [] [] s t where
  regs r _ := by
    cases r with
    | a => exact h.a
    | x => exact h.x
    | y => exact h.y
    | sp => exact h.sp
  flags f _ := h.flag f
  memory _ _ := by rw [h.mem]
  halted := h.halted
  seq := h.seq
  devices := h.devices

end Sys2Proof.Machine

section

open Sys2Proof Sys2Proof.Machine State

/-- Settles O21: a device phase is one update of the bus value, one of the memory, or none. -/
theorem devicePhaseServesTheRecord : Obligations.DevicePhaseServesTheRecord := by
  refine fun s => ⟨devicePhase_of_backed_read, fun hd hb hm => ?_, devicePhase_of_unbacked⟩
  rw [devicePhase_of_backed_write hd hb]
  exact ⟨Memory.read_write_same hm _ _, fun b h => Memory.read_write_other h _, rfl⟩

/-- Settles O22: by direction and by whether a device answers. -/
theorem heldTransactionIsIdempotent : Obligations.HeldTransactionIsIdempotent :=
  fun _ => devicePhase_devicePhase

/-- Settles O23: the bus record apart, an access that no device answers moves only the latch and the counters. -/
theorem unbackedAccess : Obligations.UnbackedAccess := by
  intro s a v hb
  have hstale : s.serve s.bus.value a = s.bus.value := by simp [serve, hb]
  have hwrite : Untouched s (s.memWrite a v) := .memWrite_of_unbacked hb v
  exact ⟨by rw [memRead_value, hstale], by rw [memRead_bus, hstale], memRead_mem s a, hwrite.mem,
    by rw [memWrite_bus], (Untouched.memRead s a).frame, hwrite.frame⟩

/-- Settles O24: the stall ticks store the byte again, so the read finds the arrays as the write left them. -/
theorem readAfterWriteOverTheBus : Obligations.ReadAfterWriteOverTheBus := by
  intro s a b v n hm ha hb
  have hb' : (suspends n (s.memWrite a v)).backed b = true := by rw [suspends_backed, memWrite_backed, hb]
  rw [memRead_value, serve_of_backed hb', suspends_memWrite_mem hm, if_pos ha, Memory.read_write hm]

end

/-! PROOFS, 30_encoding.md: what the opcode map says of the instructions of a slot is said once, form by form
(`opcodeMap_encodedBy`); what decodes is then an encoding (R70 to R73), whose first byte is the instruction's slot
of the table (`Instr.entry_eq`), and the unpopulated slots are the 105 illegal bytes (R78). -/

namespace Sys2Proof.Machine

/-! ## The operands of the three formats -/

theorem lowByte_wordOf (hh ll : Byte) : lowByte (wordOf hh ll) = ll := by
  apply BitVec.eq_of_toNat_eq
  simp only [wordOf, lowByte, BitVec.toNat_ofNat]
  omega

theorem highByte_wordOf (hh ll : Byte) : highByte (wordOf hh ll) = hh := by
  apply BitVec.eq_of_toNat_eq
  simp only [wordOf, highByte, BitVec.toNat_ofNat]
  omega

theorem offsetInRange_toInt (oo : Byte) : OffsetInRange oo.toInt :=
  ⟨oo.le_toInt, Int.lt_add_one_iff.mp oo.toInt_lt⟩

/-! ## The opcode map against the encoder -/

/-- `op` encodes the instructions of a form: each is well formed if its operand is in range, and its bytes are `op` and
then its operand (30_encoding.md R71, R72). -/
def EncodedBy (op : Byte) : Form → Prop
  | .bare i => i.WellFormed = true ∧ encode i = [op]
  | .byte f => ∀ nn, (f nn).WellFormed = true ∧ encode (f nn) = [op, nn]
  | .offset f => ∀ o, (f o).WellFormed = decide (OffsetInRange o) ∧ encode (f o) = [op, BitVec.ofInt 8 o]
  | .word f => ∀ w, (f w).WellFormed = true ∧ encode (f w) = [op, lowByte w, highByte w]

theorem opcodeMap_encodedBy {op : Byte} {form : Form} (h : opcodeMap op = some form) : EncodedBy op form := by
  unfold opcodeMap at h
  split at h <;> cases h
  all_goals first | exact ⟨rfl, rfl⟩ | exact fun _ => ⟨rfl, rfl⟩

/-- What decodes is well formed, and the bytes read are its encoding. -/
theorem encode_of_decode {bytes rest : List Byte} {i : Instr} (h : decode bytes = .ok (i, rest)) :
    i.WellFormed = true ∧ bytes = encode i ++ rest := by
  cases bytes with
  | nil => cases h
  | cons op operand =>
    cases hm : opcodeMap op with
    | none => simp [decode, hm] at h
    | some form =>
      have he := opcodeMap_encodedBy hm
      simp only [decode, hm] at h
      match form, operand, he, h with
      | .bare _, _, ⟨hw, he⟩, rfl => exact ⟨hw, by rw [he]; rfl⟩
      | .byte f, nn :: _, he, rfl => exact ⟨(he nn).1, by rw [(he nn).2]; rfl⟩
      | .offset f, oo :: _, he, rfl =>
        obtain ⟨hw, he⟩ := he oo.toInt
        exact ⟨by rw [hw, decide_eq_true (offsetInRange_toInt oo)], by rw [he, BitVec.ofInt_toInt]; rfl⟩
      | .word f, ll :: hh :: _, he, rfl =>
        obtain ⟨hw, he⟩ := he (wordOf hh ll)
        exact ⟨hw, by rw [he, lowByte_wordOf, highByte_wordOf]; rfl⟩

/-! ## The encoding against the instruction table -/

theorem encode_length (i : Instr) : (encode i).length = i.length := by
  cases i <;> rfl

theorem encode_ne_nil (i : Instr) : encode i ≠ [] := by
  rw [← List.length_pos_iff, encode_length, Instr.length]
  omega

/-- The first byte of an encoding is the slot of its instruction (10_state.md R29). -/
theorem table_of_cons_eq_encode {op : Byte} {bytes rest : List Byte} {i : Instr} (h : op :: bytes = encode i ++ rest) :
    table op = some i.slot := by
  have hop : (encode i).head? = some op := by
    rw [← List.head?_append_of_ne_nil _ (encode_ne_nil i), ← h, List.head?_cons]
  rw [Instr.slot, ← i.entry_eq, Instr.entry, hop]
  rfl

/-! ## The illegal bytes -/

/-- A map of the opcode bytes whose unpopulated slots, checked byte by byte, are the listed ones. -/
theorem eq_none_iff_of_isNone_eq {α : Type} {slots : Byte → Option α}
    (h : ∀ b, (slots b).isNone = decide (b ∈ illegalBytes)) (op : Byte) : slots op = none ↔ op ∈ illegalBytes := by
  rw [← Option.isNone_iff_eq_none, h, decide_eq_true_iff]

theorem opcodeMap_eq_none_iff (op : Byte) : opcodeMap op = none ↔ op ∈ illegalBytes :=
  eq_none_iff_of_isNone_eq (by decide) op

theorem table_eq_none_iff (op : Byte) : table op = none ↔ op ∈ illegalBytes :=
  eq_none_iff_of_isNone_eq (by decide) op

/-- The opcode byte alone decides whether the decoder refuses it as illegal. -/
theorem decode_eq_illegalOpcode_iff (op : Byte) (rest : List Byte) :
    decode (op :: rest) = .error (.illegalOpcode op) ↔ opcodeMap op = none := by
  cases hm : opcodeMap op with
  | none => simp [decode, hm]
  | some form =>
    match form, rest with
    | .bare _, _ | .byte _, [] | .byte _, _ :: _ | .offset _, [] | .offset _, _ :: _
    | .word _, [] | .word _, [_] | .word _, _ :: _ :: _ => simp [decode, hm]

end Sys2Proof.Machine

section

open Sys2Proof Sys2Proof.Machine

/-- Settles O1: form by form, the decoder reads back the operand the encoder wrote. -/
theorem decodeOfEncode : Obligations.DecodeOfEncode :=
  fun _ rest hw => decode_encode hw rest

/-- Settles O2: the opcode map names an instruction whose encoding is its slot and the operand bytes. -/
theorem encodeOfDecode : Obligations.EncodeOfDecode :=
  fun _ _ _ => encode_of_decode

/-- Settles O3: the bytes read are the encoding, which begins with the slot of its instruction and has its length. -/
theorem opcodeByteSelectsEntry : Obligations.OpcodeByteSelectsEntry := by
  intro op bytes rest i h
  obtain ⟨-, hb⟩ := encode_of_decode h
  exact ⟨⟨i.total, table_of_cons_eq_encode hb⟩, by rw [hb, List.length_append, encode_length]⟩

/-- Settles O4: the decoder refuses what the opcode map leaves out, and map and table leave out the listed bytes. -/
theorem illegalBytesAreThe105 : Obligations.IllegalBytesAreThe105 :=
  ⟨rfl, by decide, fun op rest =>
    ⟨(decode_eq_illegalOpcode_iff op rest).trans (opcodeMap_eq_none_iff op), table_eq_none_iff op⟩⟩

/-- Settles O5: the decoder computes on each word. -/
theorem sampleWordsDecode : Obligations.SampleWordsDecode :=
  ⟨rfl, rfl, rfl, rfl, rfl, rfl, rfl, rfl⟩

end

/-! PROOFS, 40_clock_step_sequencer.md: the step at a boundary (R92), the stall (R102), the period of an instruction
(R105) and the four entries that can underflow (R106). Every instruction but BRK reaches its one `Stall(T)` with one
suspension spent per bus access (`stalls_of_ne_brk`); what is left is the arithmetic of T, k and e. -/

namespace Sys2Proof.Machine

open State

/-! ## What an operation spends before its `Stall` -/

/-- From `s` to `u` there are `k` suspensions and no diagnostic, and `extra` holds `e` when `u` is reached. -/
structure Spent (k e : Nat) (s u : State) : Prop where
  cyc : u.cyc = s.cyc + k
  ticks : u.ticks = s.ticks + k
  extra : u.extra = e
  diags : u.diags = s.diags

namespace Spent

variable {k e : Nat} {s u v : State}

/-- An effect that writes none of the counters spends nothing. -/
theorem of_eq (h : Spent k e s u) (hc : v.cyc = u.cyc) (ht : v.ticks = u.ticks) (he : v.extra = u.extra)
    (hd : v.diags = u.diags) : Spent k e s v :=
  ⟨hc.trans h.cyc, ht.trans h.ticks, he.trans h.extra, hd.trans h.diags⟩

theorem memRead (h : Spent k e s u) (a : Word) : Spent (k + 1) e s (u.memRead a).2 :=
  ⟨by simp [h.cyc, Nat.add_assoc], by simp [h.ticks, Nat.add_assoc], by simp [h.extra], by simp [h.diags]⟩

theorem memWrite (h : Spent k e s u) (a : Word) (b : Byte) : Spent (k + 1) e s (u.memWrite a b) :=
  ⟨by simp [h.cyc, Nat.add_assoc], by simp [h.ticks, Nat.add_assoc], by simp [h.extra], by simp [h.diags]⟩

theorem setPc (h : Spent k e s u) (w : Word) : Spent k e s (u.setPc w) := h.of_eq rfl rfl rfl rfl

theorem setA (h : Spent k e s u) (b : Byte) : Spent k e s (u.setA b) := h.of_eq rfl rfl rfl rfl

theorem push (h : Spent k e s u) (b : Byte) : Spent (k + 1) e s (u.push b) :=
  (h.of_eq (v := u.setSp (u.sp - 1)) rfl rfl rfl rfl).memWrite (stackAddr u.sp) b

theorem pull (h : Spent k e s u) : Spent (k + 1) e s u.pull.2 :=
  (h.of_eq (v := u.setSp (u.sp + 1)) rfl rfl rfl rfl).memRead (stackAddr (u.sp + 1))

theorem operate (h : Spent k e s u) (op : Mnemonic) (b : Byte) : Spent k e s (operate op b u) :=
  h.of_eq (by simp) (by simp) (by simp) (by cases op <;> rfl)

theorem modify (h : Spent k e s u) (op : Mnemonic) (b : Byte) : Spent k e s (modify op b u).2 := by
  obtain ⟨p, hp⟩ := modify_eq_setP u op b
  exact hp ▸ h.of_eq rfl rfl rfl rfl

/-- A mode routine spends its reads (41_addressing_modes.md R134). -/
theorem address (i : Instr) (s : State) : Spent (modeReads i.mode) (i.address s).2.extra s (i.address s).2 := by
  by_cases hm : i.mode.hasAddress = true
  · have h := fetched_address i s hm
    exact ⟨h.cyc, h.ticks, rfl, h.untouched.diags⟩
  · cases i <;> first | exact absurd rfl hm | exact ⟨rfl, rfl, rfl, rfl⟩

end Spent

/-! ## The accesses of an operation, by class (70_reset_and_hazards.md R261) -/

section
variable {op : Mnemonic} {mode : Mode}

theorem operationAccesses_reader (h : op.isReader = true) : operationAccesses op mode = 1 := by
  cases op <;> first | rfl | cases h

theorem operationAccesses_storer (h : op.isStorer = true) : operationAccesses op mode = 1 := by
  cases op <;> first | rfl | cases h

theorem operationAccesses_modifier (h : op.isModifier = true) (hm : mode ≠ .acc) : operationAccesses op mode = 2 := by
  cases op <;> first | rfl | exact if_neg hm | cases h

theorem operationAccesses_jump (h : op.isJump = true) : operationAccesses op mode = 0 := by
  cases op <;> first | rfl | cases h

end

/-! ## Every instruction but BRK spends its bus accesses and stalls -/

/-- The instruction reaches its `Stall(T)` with one suspension spent per bus access and `e` in `extra`
(40_clock_step_sequencer.md R105). -/
def Stalls (i : Instr) (s : State) : Prop :=
  ∃ u, Spent (accesses i) (extraCycles i s) s u ∧ exec i s = .next (u.stall (declaredTotal i s))

section
variable {i : Instr} {s : State}

theorem declaredTotal_of_not_branch (hm : i.mode ≠ .rel) : declaredTotal i s = i.total := if_neg hm

theorem extraCycles_of_not_branch (hm : i.mode ≠ .rel) : extraCycles i s = (i.address s).2.extra := if_neg hm

/-- The accesses are those of the mode and then those of the operation (70_reset_and_hazards.md R261). -/
theorem Stalls.of_spent (hm : i.mode ≠ .rel) {k : Nat} (hk : operationAccesses i.mnemonic i.mode = k) {u : State}
    (h : Spent (modeReads i.mode + k) (i.address s).2.extra s u) (he : exec i s = .next (u.stall i.total)) :
    Stalls i s :=
  ⟨u, by rwa [accesses, hk, extraCycles_of_not_branch hm], by rwa [declaredTotal_of_not_branch hm]⟩

/-- The read of the operand byte is the one access after the mode routine, in the immediate mode too. -/
theorem source_state (i : Instr) (s : State) : (i.source s).2 = ((i.address s).2.memRead (i.address s).1).2 := by
  cases i <;> rfl

theorem stalls_reader (hm : i.mode ≠ .rel) (h : i.mnemonic.isReader = true) : Stalls i s := by
  have hs : Spent (modeReads i.mode + 1) (i.address s).2.extra s (i.source s).2 := by
    rw [source_state]
    exact (Spent.address i s).memRead _
  exact .of_spent hm (operationAccesses_reader h) (hs.operate _ _) (exec_reader i s h)

theorem stalls_storer (hm : i.mode ≠ .rel) (h : i.mnemonic.isStorer = true) : Stalls i s :=
  .of_spent hm (operationAccesses_storer h) ((Spent.address i s).memWrite _ _) (exec_storer i s h)

theorem stalls_modifier (hm : i.mode ≠ .rel) (ha : i.mode ≠ .acc) (h : i.mnemonic.isModifier = true) : Stalls i s :=
  .of_spent hm (operationAccesses_modifier h ha) ((((Spent.address i s).memRead _).modify _ _).memWrite _ _)
    (exec_modifier i s h ha)

theorem stalls_jump (hm : i.mode ≠ .rel) (h : i.mnemonic.isJump = true) : Stalls i s :=
  .of_spent hm (operationAccesses_jump h) ((Spent.address i s).setPc _) (exec_jump i s h)

theorem stalls_jsr (addr : Word) : Stalls (.jsr addr) s :=
  .of_spent nofun rfl ((((Spent.address (.jsr addr) s).push _).push _).setPc _) rfl

theorem stalls_accumulator (h : i.mode = .acc) : Stalls i s := by
  have hs : Spent (accesses i) (extraCycles i s) s s := by
    cases i <;> first | (cases h; done) | exact ⟨rfl, rfl, rfl, rfl⟩
  have ht : declaredTotal i s = i.total := declaredTotal_of_not_branch (by simp [h])
  exact ⟨_, (hs.modify i.mnemonic s.a).setA _, ht ▸ exec_accumulator i s h⟩

/-- Without an operand only the stack is accessed. -/
theorem stalls_implied (hb : i.mnemonic ≠ .brk) (h : i.mode = .imp) : Stalls i s := by
  have hs : Spent 0 s.extra s s := ⟨rfl, rfl, rfl, rfl⟩
  cases i with
  | brk => exact absurd rfl hb
  | pha | php => exact ⟨_, hs.push _, rfl⟩
  | pla | plp => exact ⟨_, hs.pull.operate _ _, exec_puller _ s rfl⟩
  | rts => exact ⟨_, hs.pull.pull.setPc _, rfl⟩
  | rti => exact ⟨_, (hs.pull.operate .rti _).pull.pull.setPc _, rfl⟩
  | tsx | txs | tax | tay | txa | tya | inx | iny | dex | dey | clc | sec | cli | sei | clv | cld | sed | nop =>
    exact ⟨_, hs.operate _ 0, exec_registerOnly _ s rfl 0⟩
  | _ => cases h

/-- A branch condition reads flags alone. -/
theorem taken_congr {u : State} (h : ∀ f, u.flag f = s.flag f) (op : Mnemonic) : taken op u = taken op s := by
  cases op <;> simp [taken, takenBcc, takenBcs, takenBeq, takenBne, takenBmi, takenBpl, takenBvc, takenBvs, h]

theorem address_extra_branch (hm : i.mode = .rel) : (i.address s).2.extra = s.extra := by
  cases i <;> first | (cases hm; done) | exact fetchOperand_extra s

theorem accesses_branch (hm : i.mode = .rel) : accesses i = 1 := by
  cases i <;> first | (cases hm; done) | rfl

/-- The branch is where T and the page crossing depend on the flags (46_control_transfer.md R195). -/
theorem stalls_branch (hm : i.mode = .rel) (he : s.extra = 0) : Stalls i s := by
  have hk : accesses i = modeReads i.mode := by rw [accesses_branch hm, hm, modeReads]
  have ha : Spent (accesses i) 0 s (i.address s).2 := by
    rw [hk, ← he, ← address_extra_branch hm]
    exact .address i s
  have hflag := (fetched_address i s (by rw [hm]; rfl)).untouched.flag
  have hx := exec_branch i s hm
  rw [taken_congr hflag] at hx
  rw [Stalls, declaredTotal, extraCycles, if_pos hm, if_pos hm, hx]
  cases ht : taken i.mnemonic s with
  | false => exact ⟨_, ha, rfl⟩
  | true =>
    by_cases hc : highByte (i.address s).1 = highByte (i.address s).2.pc
    · exact ⟨_, by simpa [crossesPage, hc] using ha.setPc (i.address s).1, by simp [hc]⟩
    · have hs : Spent (accesses i) 1 s ((i.address s).2.setExtra ((i.address s).2.extra + 1)) :=
        ⟨ha.cyc, ha.ticks, by rw [setExtra_extra, ha.extra], ha.diags⟩
      exact ⟨_, by simpa [crossesPage, hc] using hs.setPc (i.address s).1, by simp [hc]⟩

theorem stalls_of_ne_brk (hb : i.mnemonic ≠ .brk) (he : s.extra = 0) : Stalls i s := by
  by_cases hrel : i.mode = .rel
  · exact stalls_branch hrel he
  by_cases hacc : i.mode = .acc
  · exact stalls_accumulator hacc
  by_cases himp : i.mode = .imp
  · exact stalls_implied hb himp
  by_cases hreader : i.mnemonic.isReader = true
  · exact stalls_reader hrel hreader
  by_cases hstorer : i.mnemonic.isStorer = true
  · exact stalls_storer hrel hstorer
  by_cases hmodifier : i.mnemonic.isModifier = true
  · exact stalls_modifier hrel hacc hmodifier
  by_cases hjump : i.mnemonic.isJump = true
  · exact stalls_jump hrel hjump
  · cases i <;> first
      | exact absurd rfl hrel
      | exact absurd rfl hacc
      | exact absurd rfl himp
      | exact absurd rfl hreader
      | exact absurd rfl hstorer
      | exact absurd rfl hmodifier
      | exact absurd rfl hjump
      | exact stalls_jsr _

/-! ## The entries that can underflow -/

/-- LDA and STA through a pointer in page zero (40_clock_step_sequencer.md R106): four accesses of a total of four. -/
def CanUnderflow (i : Instr) : Prop := i.mnemonic ∈ [.lda, .sta] ∧ (i.mode = .izx ∨ i.mode = .izy)

theorem accesses_of_canUnderflow (h : CanUnderflow i) : accesses i = 4 ∧ declaredTotal i s = 4 := by
  cases i with
  | ldaIzx | staIzx | ldaIzy | staIzy => exact ⟨rfl, rfl⟩
  | _ => simp [CanUnderflow, Instr.mnemonic, Instr.mode] at h

theorem accesses_lt_declaredTotal (hb : i.mnemonic ≠ .brk) (h : ¬ CanUnderflow i) :
    accesses i < declaredTotal i s := by
  by_cases hm : i.mode = .rel
  · rw [accesses_branch hm, declaredTotal, if_pos hm]
    split <;> omega
  · rw [declaredTotal_of_not_branch hm]
    cases i <;> first
      | exact Nat.le_of_ble_eq_true rfl
      | exact absurd rfl hb
      | exact absurd rfl hm
      | exact absurd (by simp [CanUnderflow, Instr.mnemonic, Instr.mode]) h

/-- (Zero-page,X) has no base to cross a page from (41_addressing_modes.md R128). -/
theorem extraCycles_izx (hm : i.mode = .izx) : extraCycles i s = s.extra := by
  rw [extraCycles_of_not_branch (by simp [hm])]
  cases i <;> first | (cases hm; done) | simp [Instr.address, indexedIndirectX]

/-- (Zero-page),Y counts at most one crossing (41_addressing_modes.md R129). -/
theorem extraCycles_izy_le (hm : i.mode = .izy) : extraCycles i s ≤ s.extra + 1 := by
  have h (nn : Byte) : (indirectIndexedY nn s).2.extra ≤ s.extra + 1 := by
    simp only [indirectIndexedY, indexed_extra, memRead_extra, fetchOperand_extra]
    split <;> omega
  rw [extraCycles_of_not_branch (by simp [hm])]
  cases i <;> first | (cases hm; done) | exact h _

end

end Sys2Proof.Machine

section

open Sys2Proof Sys2Proof.Machine State

/-- Settles O27: the bookkeeping clears `extra` and reports, and as many suspensions follow as remain. -/
theorem stallRule : Obligations.StallRule := by
  intro s total
  have hn : ((s.remaining total).toNat : Int) = max (s.remaining total) 0 := Int.ofNat_toNat _
  refine ⟨?_, ?_, stall_extra s total, stall_diags s total, stall_pc s total, fun g => ?_, stall_flag s total⟩
  · rw [stall_ticks, Nat.cast_add, hn]
    rfl
  · rw [stall_cyc, Nat.cast_add, hn]
    rfl
  · cases g with
    | a => exact stall_a s total
    | x => exact stall_x s total
    | y => exact stall_y s total
    | sp => exact stall_sp s total

/-- Settles O59: the stall is reached in tick k with cyc = k and extra = e, and leaves T + e - (k + 1) ticks. -/
theorem periodOfEveryInstruction : Obligations.PeriodOfEveryInstruction := by
  refine ⟨fun i s t hb hc he hx => ?_, fun s t _ _ hd hs => ?_⟩
  · obtain ⟨u, hu, hexec⟩ := stalls_of_ne_brk hb he
    cases hexec.symm.trans hx
    have hr : u.remaining (declaredTotal i s) = (declaredTotal i s : Int) + extraCycles i s - (accesses i + 1) := by
      simp only [remaining, hu.cyc, hu.extra, hc]
      omega
    refine ⟨?_, stall_extra u _, ?_⟩
    · rw [stall_ticks, hr, hu.ticks, period]
      omega
    · rw [stall_diags, hr, hu.ticks, hu.diags]
      exact if_congr (by omega) rfl rfl
  · rw [step_eq_tick (.inr (.inr hd))] at hs
    cases hs
    exact tick_ticks

/-- Settles O60: LDA and STA through a pointer make four accesses of a total of four, and only a page crossed adds the
missing cycle; every other total exceeds the accesses. -/
theorem underflowCases : Obligations.UnderflowCases := by
  intro i s hb he
  by_cases h : CanUnderflow i
  · obtain ⟨hk, ht⟩ := accesses_of_canUnderflow (s := s) h
    obtain ⟨hop, hm | hm⟩ := h
    · have hx : extraCycles i s = 0 := (extraCycles_izx hm).trans he
      simp [period, hk, ht, hx, hop, hm]
    · have hx : extraCycles i s ≤ 0 + 1 := he ▸ extraCycles_izy_le hm
      simp only [period, hk, ht, hop, hm, reduceCtorEq, false_or, true_and, true_implies]
      omega
  · have hlt := accesses_lt_declaredTotal (s := s) hb h
    refine ⟨⟨fun hu => by omega, fun ⟨hop, hm⟩ => ?_⟩, fun hop hm => absurd ⟨hop, hm⟩ h⟩
    exact absurd ⟨hop, hm.imp_right And.left⟩ h

/-- Settles O6: at a boundary the step is the meaning and its retirement, which asserts the next fetch unless halted. -/
theorem stepRunsDecodedInstruction : Obligations.StepRunsDecodedInstruction := by
  intro s t i hh hi hd he
  have hs : step s = .next t.retire := step_eq_retire hh hi hd he
  exact ⟨fun ht => by simp [hs, retire, ht], fun ht => by simp [hs, retire, ht]⟩

end

/-! PROOFS, 41_addressing_modes.md: the effective address of each mode as a number (R121 to R132), what its reads leave
on the bus and in `extra` (R133, R134), and that a mode routine writes nothing but PC (R120). What the shared operations do
is said first: the operand reads, the pair of pointer reads, the indexed sum and the successor inside a page. -/

namespace Sys2Proof.Machine

open State

/-! ## Words and bytes as numbers -/

theorem wordOf_toNat (hh ll : Byte) : (wordOf hh ll).toNat = hh.toNat * 256 + ll.toNat := by
  rw [wordOf, BitVec.toNat_ofNat, Nat.mod_eq_of_lt (by omega)]

theorem wordOf_toNat_div (hh ll : Byte) : (wordOf hh ll).toNat / 256 = hh.toNat := by
  rw [wordOf_toNat]
  omega

theorem highByte_eq_highByte_iff (v w : Word) : highByte v = highByte w ↔ v.toNat / 256 = w.toNat / 256 := by
  rw [highByte, highByte, ← BitVec.toNat_inj, BitVec.toNat_ofNat, BitVec.toNat_ofNat]
  omega

/-- The page of one word joined to the low byte of another, bit by bit. -/
theorem pageMask_or_lowMask (v w : Word) :
    (v &&& 0xFF00) ||| (w &&& 0x00FF) = v.extractLsb' 8 8 ++ w.extractLsb' 0 8 := by
  ext i hi
  rw [BitVec.getElem_append]
  interval_cases i <;> simp

theorem pageMask_or_lowMask_toNat (v w : Word) :
    ((v &&& 0xFF00) ||| (w &&& 0x00FF)).toNat = v.toNat / 256 * 256 + w.toNat % 256 := by
  rw [pageMask_or_lowMask, BitVec.toNat_append, ← Nat.shiftLeft_add_eq_or_of_lt (BitVec.isLt _)]
  simp only [BitVec.extractLsb'_toNat, Nat.shiftRight_eq_div_pow, Nat.shiftLeft_eq]
  omega

/-- The byte after the last one of a page is the page's first (41_addressing_modes.md R132). -/
theorem nextInPage_eq (ptr : Word) :
    nextInPage ptr = if ptr.toNat % 256 = 255 then BitVec.ofNat 16 (ptr.toNat - 255) else ptr + 1 := by
  have hsucc : (ptr + 1).toNat = (ptr.toNat + 1) % 65536 := BitVec.toNat_add ptr 1
  apply BitVec.eq_of_toNat_eq
  rw [nextInPage, pageMask_or_lowMask_toNat, hsucc]
  split
  · rw [BitVec.toNat_ofNat]
    omega
  · rw [hsucc]
    omega

/-! ## The shared operations of the modes -/

section
variable {s t : State}

/-- What a read finds is the same after anything that leaves the windows and the arrays. -/
theorem Untouched.serve (h : Untouched s t) (v : Byte) (a : Word) : t.serve v a = s.serve v a :=
  serve_congr s h.devices h.mem v a

/-- The word two reads in a row deliver, low byte first; the second falls back on what the first left on the bus. -/
theorem Untouched.pointer (h : Untouched s t) (a b : Word) :
    wordOf ((t.memRead a).2.memRead b).1 (t.memRead a).1 =
      wordOf (s.serve (s.serve t.bus.value a) b) (s.serve t.bus.value a) := by
  simp only [memRead_value, memRead_bus, memRead_serve, h.serve]

variable (s)

theorem fetchOperand_x : s.fetchOperand.x = s.x := (Untouched.fetchOperand s).x

theorem fetchOperand_y : s.fetchOperand.y = s.y := (Untouched.fetchOperand s).y

theorem fetchOperand_bus_afterOne : s.fetchOperand.bus = ⟨.read, s.pc, s.afterOne⟩ := fetchOperand_bus s

theorem fetchOperand_fetchOperand_bus : s.fetchOperand.fetchOperand.bus = ⟨.read, s.pc + 1, s.afterTwo⟩ := by
  rw [fetchOperand_bus_afterOne, fetchOperand_afterOne, fetchOperand_pc]

theorem indexed_toNat (b : Word) (i : Byte) : (s.indexed b i).1.toNat = (b.toNat + i.toNat) % 65536 := by
  rw [indexed_address, BitVec.toNat_add, BitVec.toNat_setWidth_of_le (by decide)]

/-- `extra` goes up by one exactly when the sum leaves the base's page (41_addressing_modes.md R133). -/
theorem indexed_extra_toNat (b : Word) (i : Byte) : (s.indexed b i).2.extra =
    s.extra + if (b.toNat + i.toNat) % 65536 / 256 = b.toNat / 256 then 0 else 1 := by
  have h : highByte (b + i.setWidth 16) = highByte b ↔ (b.toNat + i.toNat) % 65536 / 256 = b.toNat / 256 := by
    rw [highByte_eq_highByte_iff, ← indexed_toNat s b i, indexed_address]
  simp only [indexed_extra, ne_eq, h, ite_not]
  split <;> rfl

end

/-! ## The addresses of the modes -/

section
variable (nn : Byte) (addr : Word) (s : State)

theorem zeroPage_toNat : (zeroPage nn s).1.toNat = nn.toNat := BitVec.toNat_setWidth_of_le (by decide)

theorem zeroPageX_toNat : (zeroPageX nn s).1.toNat = (nn.toNat + s.x.toNat) % 256 := by
  rw [← fetchOperand_x]
  exact (BitVec.toNat_setWidth_of_le (by decide)).trans (BitVec.toNat_add _ _)

theorem zeroPageY_toNat : (zeroPageY nn s).1.toNat = (nn.toNat + s.y.toNat) % 256 := by
  rw [← fetchOperand_y]
  exact (BitVec.toNat_setWidth_of_le (by decide)).trans (BitVec.toNat_add _ _)

theorem absoluteX_eq : absoluteX addr s = s.fetchOperand.fetchOperand.indexed addr s.x := by
  rw [absoluteX, fetchOperand_x, fetchOperand_x]

theorem absoluteY_eq : absoluteY addr s = s.fetchOperand.fetchOperand.indexed addr s.y := by
  rw [absoluteY, fetchOperand_y, fetchOperand_y]

theorem indexedIndirectX_address :
    let lo := s.serve s.afterOne ((nn + s.x).setWidth 16)
    (indexedIndirectX nn s).1 = wordOf (s.serve lo ((nn + s.x + 1).setWidth 16)) lo := by
  rw [indexedIndirectX, fetchOperand_x, (Untouched.fetchOperand s).pointer, fetchOperand_bus_afterOne]

/-- The word read at the pointer is the base of an indexed sum, once three reads are made. -/
theorem indirectIndexedY_eq :
    let lo := s.serve s.afterOne (nn.setWidth 16)
    ∃ t : State, t.extra = s.extra ∧
      indirectIndexedY nn s = t.indexed (wordOf (s.serve lo ((nn + 1).setWidth 16)) lo) s.y := by
  refine ⟨((s.fetchOperand.memRead (nn.setWidth 16)).2.memRead ((nn + 1).setWidth 16)).2, by simp, ?_⟩
  rw [indirectIndexedY, (Untouched.fetchOperand s).pointer, fetchOperand_bus_afterOne, memRead_y, memRead_y,
    fetchOperand_y]

theorem relative_toNat (offset : Int) :
    ((relative offset s).1.toNat : Int) = (s.pc.toNat + 1 + offset) % 65536 := by
  have hpc : (s.pc + 1).toNat = (s.pc.toNat + 1) % 65536 := BitVec.toNat_add s.pc 1
  have ho : (BitVec.ofInt 16 offset).toNat = (offset % 65536).toNat := BitVec.toNat_ofInt offset
  rw [relative, fetchOperand_pc, BitVec.toNat_add, hpc, ho]
  omega

theorem absoluteIndirect_address :
    let lo := s.serve s.afterTwo addr
    (absoluteIndirect addr s).1 = wordOf (s.serve lo (nextInPage addr)) lo := by
  rw [absoluteIndirect, (fetched_two s).untouched.pointer, fetchOperand_fetchOperand_bus]

end

/-! ## The instructions of a mode -/

section
variable {i : Instr}

theorem mnemonic_of_mode_zpy (h : i.mode = .zpy) : i.mnemonic = .ldx ∨ i.mnemonic = .stx := by
  cases i with
  | ldxZpy nn => exact .inl rfl
  | stxZpy nn => exact .inr rfl
  | _ => cases h

theorem eq_jmpInd_of_mode_ind (h : i.mode = .ind) : ∃ p, i = .jmpInd p := by
  cases i with
  | jmpInd ptr => exact ⟨ptr, rfl⟩
  | _ => cases h

theorem address_of_mode_imm (h : i.mode = .imm) (s : State) : i.address s = immediate s := by
  cases i <;> first | (cases h; done) | rfl

theorem address_of_mode_imp_or_acc (h : i.mode = .imp ∨ i.mode = .acc) (s : State) : i.address s = (0, s) := by
  cases i <;> first | rfl | (obtain h | h := h <;> cases h)

end

/-! ## What a mode routine changes -/

theorem hasAddress_or_imm_or_imp_or_acc (m : Mode) : m.hasAddress = true ∨ m = .imm ∨ m = .imp ∨ m = .acc := by
  cases m <;> decide

/-- Every mode, with bus reads or without, writes PC alone of what a program can see (41_addressing_modes.md R120). -/
theorem Untouched.address (i : Instr) (s : State) : Untouched s (i.address s).2 := by
  obtain h | h | h := hasAddress_or_imm_or_imp_or_acc i.mode
  · exact (fetched_address i s h).untouched
  · rw [address_of_mode_imm h s]
    exact Untouched.setPc s _
  · rw [address_of_mode_imp_or_acc h s]
    exact Untouched.refl s

theorem address_pc (i : Instr) (s : State) : (i.address s).2.pc = s.pc + BitVec.ofNat 16 i.mode.operandBytes := by
  obtain h | h | h := hasAddress_or_imm_or_imp_or_acc i.mode
  · exact (fetched_address i s h).pc
  · rw [address_of_mode_imm h s, h]
    rfl
  · have h0 : i.mode.operandBytes = 0 := by obtain h | h := h <;> rw [h] <;> rfl
    rw [address_of_mode_imp_or_acc h s, h0]
    exact (BitVec.add_zero s.pc).symm

end Sys2Proof.Machine

section

open Sys2Proof Sys2Proof.Machine State

/-- Settles O28: the three zero-page modes share one operand read; their sums are taken in a byte. -/
theorem immediateAndZeroPageAddresses : Obligations.ImmediateAndZeroPageAddresses := by
  intro nn s
  refine ⟨rfl, rfl, zeroPage_toNat nn s, zeroPageX_toNat nn s, zeroPageY_toNat nn s, rfl, fun t ht => ?_,
    fun i => mnemonic_of_mode_zpy⟩
  have h : t = s.fetchOperand := by simpa [zeroPage, zeroPageX, zeroPageY] using ht
  rw [h]
  exact ⟨fetchOperand_pc s, fetchOperand_cyc s, fetchOperand_extra s, fetchOperand_bus_afterOne s⟩

/-- Settles O29: the indexed forms are one indexed sum after the two reads of the absolute form. -/
theorem absoluteAddresses : Obligations.AbsoluteAddresses := by
  intro addr s
  have he : s.fetchOperand.fetchOperand.extra = s.extra := by simp
  have hb := fetchOperand_fetchOperand_bus s
  have hf := fetched_two s
  rw [absoluteX_eq, absoluteY_eq]
  refine ⟨rfl, he, indexed_toNat _ _ _, he ▸ indexed_extra_toNat _ _ _, indexed_toNat _ _ _,
    he ▸ indexed_extra_toNat _ _ _, ?_⟩
  simp only [List.forall_mem_cons, indexed_pc, indexed_cyc, indexed_bus]
  exact ⟨⟨hf.pc, hf.cyc, hb⟩, ⟨hf.pc, hf.cyc, hb⟩, ⟨hf.pc, hf.cyc, hb⟩, List.forall_mem_nil _⟩

/-- Settles O30: both pointers are read after one operand byte; only the second form goes on to an indexed sum. -/
theorem zeroPagePointerAddresses : Obligations.ZeroPagePointerAddresses := by
  intro nn s
  refine ⟨⟨?_, ?_⟩, ?_, ?_⟩
  · rw [indexedIndirectX_address, wordOf_toNat]
  · simp [indexedIndirectX]
  · obtain ⟨t, he, h⟩ := indirectIndexedY_eq nn s
    rw [h, indexed_toNat, indexed_extra_toNat, he, wordOf_toNat_div, wordOf_toNat]
    exact ⟨rfl, rfl⟩
  · have hx := fetched_indexedIndirectX nn s
    have hy := fetched_indirectIndexedY nn s
    exact List.forall_mem_cons.mpr ⟨⟨hx.pc, hx.cyc, hx.dir⟩, List.forall_mem_singleton.mpr ⟨hy.pc, hy.cyc, hy.dir⟩⟩

/-- Settles O31: the offset is added to the PC its own read has advanced. -/
theorem relativeTarget : Obligations.RelativeTarget := fun offset s _ =>
  ⟨relative_toNat s offset, fetchOperand_pc s, fetchOperand_cyc s, fetchOperand_extra s⟩

/-- Settles O32: the second pointer byte is the next one in the pointer's page. -/
theorem absoluteIndirectPageWrap : Obligations.AbsoluteIndirectPageWrap := by
  intro ptr s
  have hf := fetched_absoluteIndirect ptr s
  refine ⟨?_, hf.pc, hf.cyc, by simp [absoluteIndirect], fun i => eq_jmpInd_of_mode_ind⟩
  rw [absoluteIndirect_address, nextInPage_eq]

/-- Settles O34: a mode routine leaves all but PC, and spends its reads. -/
theorem modesWriteOnlyPc : Obligations.ModesWriteOnlyPc := by
  intro i s
  have hu := Untouched.address i s
  exact ⟨hu.frame, hu.mem, address_pc i s, (Spent.address i s).cyc⟩

end

/-! PROOFS, 42_load_store.md: the operand byte (R140), the loads (R141 to R143), the stores (R144 to R146), and the
frames of the reading, storing and read-modify-write classes. A frame is built up one state operation at a time
(`namespace Frame`); the three class lemmas carry it through the mode routine, the effect and the stall. -/

namespace Sys2Proof.Machine

open State

/-! ## What the effects, `SetNZ` and the stall keep -/

section
variable (op : Mnemonic) (v : Byte) (n : Nat) (s : State) (r : Reg)

@[simp] theorem operate_pc : (operate op v s).pc = s.pc := by cases op <;> rfl
@[simp] theorem operate_bus : (operate op v s).bus = s.bus := by cases op <;> rfl

theorem setNZ_reg : (s.setNZ v).reg r = s.reg r := by cases r <;> simp [reg]
theorem stall_reg : (s.stall n).reg r = s.reg r := by cases r <;> simp [reg]

end

/-! ## The operand byte, and the completion of loads and stores -/

section
variable {i : Instr} {s : State}

/-- Outside the immediate mode the operand byte is what a read of the effective address finds; where no device answers,
that is what the mode routine left on the bus. -/
theorem source_value_of_address (hm : i.mode ≠ .imm) :
    (i.source s).1 = s.serve (i.address s).2.bus.value (i.address s).1 := by
  rw [source_eq i s hm, byteAt, memRead_value, (Untouched.address i s).serve]

/-- A reading instruction whose effect ends in `SetNZ` of a byte completes with N and Z of that byte, with the registers
its effect leaves, and with PC past the operand bytes. -/
theorem exec_reader_setNZ (h : i.mnemonic.isReader = true) {v : Byte} {u : State}
    (ho : operate i.mnemonic (i.source s).1 (i.source s).2 = u.setNZ v) :
    ∃ t, exec i s = .next t ∧ (∀ r, t.reg r = u.reg r) ∧ t.flag .n = v.msb ∧ t.flag .z = decide (v = 0) ∧
      t.pc = s.pc + BitVec.ofNat 16 i.mode.operandBytes := by
  have hpc : (u.setNZ v).pc = s.pc + BitVec.ofNat 16 i.mode.operandBytes := by
    rw [← ho, operate_pc, (fetched_source i s h).pc]
  refine ⟨(u.setNZ v).stall i.total, ?_, fun r => ?_, ?_, ?_, ?_⟩
  · rw [exec_reader i s h, readOp, ho]
  · rw [stall_reg, setNZ_reg]
  · rw [stall_flag, setNZ_flag]
    rfl
  · rw [stall_flag, setNZ_flag]
    rfl
  · rw [stall_pc, hpc]

theorem Untouched.sourceByte {s t : State} (h : Untouched s t) (op : Mnemonic) : sourceByte op t = sourceByte op s := by
  cases op <;> simp [Machine.sourceByte, pushedStatus, status, h.a, h.x, h.y, h.p]

/-- A storing instruction completes with its register stored at the effective address, and PC past the operand bytes. -/
theorem exec_storer_stored (h : i.mnemonic.isStorer = true) (hm : s.mem.wf = true) :
    ∃ t, exec i s = .next t ∧ t.mem = s.stored s.mem (i.address s).1 (sourceByte i.mnemonic s) ∧
      t.pc = s.pc + BitVec.ofNat 16 i.mode.operandBytes := by
  have hu := Untouched.address i s
  refine ⟨_, exec_storer i s h, ?_, ?_⟩
  · rw [storeOp, stall_mem_of_memWrite _ (hu.mem.symm ▸ hm), backed_congr s hu.devices, hu.mem, hu.sourceByte, stored]
  · rw [storeOp, stall_pc, memWrite_pc, address_pc]

end

/-! ## Frames, one state operation at a time -/

namespace Frame

variable {R : List Reg} {F : List Flag} {M : List Word} {s u : State}

theorem of_untouched (h : Untouched s u) : Frame R F M s u where
  regs r _ := h.frame.regs r List.not_mem_nil
  flags f _ := h.flag f
  memory _ _ := by rw [h.mem]
  halted := h.halted
  seq := h.seq
  devices := h.devices

theorem refl (s : State) : Frame R F M s s := of_untouched (.refl s)

theorem trans {t : State} (h : Frame R F M s u) (k : Frame R F M u t) : Frame R F M s t where
  regs r hr := (k.regs r hr).trans (h.regs r hr)
  flags f hf := (k.flags f hf).trans (h.flags f hf)
  memory a ha := (k.memory a ha).trans (h.memory a ha)
  halted := k.halted.trans h.halted
  seq := k.seq.trans h.seq
  devices := k.devices.trans h.devices

theorem setA (h : Frame R F M s u) (v : Byte) (ha : .a ∈ R) : Frame R F M s (u.setA v) where
  __ := h
  regs r hr := by
    cases r with
    | a => exact absurd ha hr
    | _ => exact h.regs _ hr

theorem setX (h : Frame R F M s u) (v : Byte) (hx : .x ∈ R) : Frame R F M s (u.setX v) where
  __ := h
  regs r hr := by
    cases r with
    | x => exact absurd hx hr
    | _ => exact h.regs _ hr

theorem setY (h : Frame R F M s u) (v : Byte) (hy : .y ∈ R) : Frame R F M s (u.setY v) where
  __ := h
  regs r hr := by
    cases r with
    | y => exact absurd hy hr
    | _ => exact h.regs _ hr

theorem setFlag (h : Frame R F M s u) {f : Flag} (b : Bool) (hf : f ∈ F) : Frame R F M s (u.setFlag f b) where
  __ := h
  regs r hr := by cases r <;> exact h.regs _ hr
  flags g hg := by rw [setFlag_flag, if_neg (ne_of_mem_of_not_mem hf hg).symm, h.flags g hg]

theorem setNZ (h : Frame R F M s u) (v : Byte) (hn : .n ∈ F) (hz : .z ∈ F) : Frame R F M s (u.setNZ v) :=
  (h.setFlag v.msb hn).setFlag (v == 0) hz

theorem memWrite (h : Frame R F M s u) {a : Word} (v : Byte) (ha : a ∈ M) : Frame R F M s (u.memWrite a v) :=
  h.trans
    { regs := fun r _ => by cases r <;> simp [reg]
      flags := fun f _ => memWrite_flag u a v f
      memory := fun b hb => memWrite_mem_other u (ne_of_mem_of_not_mem ha hb).symm v
      halted := memWrite_halted u a v
      seq := memWrite_seq u a v
      devices := memWrite_devices u a v }

/-- Stall ticks touch no more than the byte that a write held on the bus names (20_memory.md R47). -/
theorem stall (h : Frame R F M s u) (n : Nat) (hb : u.bus.dir = .write → u.bus.addr ∈ M) : Frame R F M s (u.stall n) :=
  h.trans
    { regs := fun r _ => stall_reg n u r
      flags := fun f _ => stall_flag u n f
      memory := fun a ha => by
        cases hd : u.bus.dir with
        | read => rw [stall_mem_of_read n hd]
        | write => exact stall_mem_other n (ne_of_mem_of_not_mem (hb hd) ha).symm fun _ => rfl
      halted := stall_halted u n
      seq := stall_seq u n
      devices := stall_devices u n }

/-! ## The effects of the mnemonics -/

section
variable (op : Mnemonic) (v : Byte) (u : State)

theorem operate_accumulator (hop : op ∈ [.lda, .and, .ora, .eor]) : Frame [.a] [.n, .z] M u (operate op v u) := by
  obtain ⟨w, h⟩ : ∃ w, operate op v u = (u.setA w).setNZ w := by fin_cases hop <;> exact ⟨_, rfl⟩
  rw [h]
  exact ((refl u).setA w (by decide)).setNZ w (by decide) (by decide)

theorem operate_ldx : Frame [.x] [.n, .z] M u (operate .ldx v u) :=
  ((refl u).setX v (by decide)).setNZ v (by decide) (by decide)

theorem operate_ldy : Frame [.y] [.n, .z] M u (operate .ldy v u) :=
  ((refl u).setY v (by decide)).setNZ v (by decide) (by decide)

theorem operate_addition (hop : op ∈ [.adc, .sbc]) : Frame [.a] [.n, .v, .z, .c] M u (operate op v u) := by
  obtain ⟨m, h⟩ : ∃ m, operate op v u = u.addWithCarry m := by fin_cases hop <;> exact ⟨_, rfl⟩
  rw [h]
  exact ((((refl u).setFlag _ (by decide)).setFlag _ (by decide)).setA _ (by decide)).setNZ _ (by decide) (by decide)

theorem operate_comparison (hop : op ∈ [.cmp, .cpx, .cpy]) : Frame [] [.n, .z, .c] M u (operate op v u) := by
  obtain ⟨r, h⟩ : ∃ r, operate op v u = u.compare r v := by fin_cases hop <;> exact ⟨_, rfl⟩
  rw [h]
  exact (((refl u).setFlag _ (by decide)).setFlag _ (by decide)).setFlag _ (by decide)

theorem operate_bit : Frame [] [.n, .v, .z] M u (operate .bit v u) :=
  (((refl u).setFlag _ (by decide)).setFlag _ (by decide)).setFlag _ (by decide)

theorem modify_step (hop : op ∈ [.inc, .dec]) : Frame [] [.n, .z] M u (modify op v u).2 := by
  obtain ⟨w, h⟩ : ∃ w, (modify op v u).2 = u.setNZ w := by fin_cases hop <;> exact ⟨_, rfl⟩
  rw [h]
  exact (refl u).setNZ w (by decide) (by decide)

theorem modify_shift (hop : op ∈ [.asl, .lsr, .rol, .ror]) : Frame [] [.n, .z, .c] M u (modify op v u).2 := by
  obtain ⟨c, w, h⟩ : ∃ c w, (modify op v u).2 = (u.setFlag .c c).setNZ w := by fin_cases hop <;> exact ⟨_, _, rfl⟩
  rw [h]
  exact ((refl u).setFlag c (by decide)).setNZ w (by decide) (by decide)

end

/-! ## The classes -/

section
variable {i : Instr} {t : State} {ops : List Mnemonic}

/-- A reading instruction has the frame of its effect: its operand reads and its stall hold a read on the bus. -/
theorem of_reader (hops : ∀ op ∈ ops, op.isReader = true) (hi : i.mnemonic ∈ ops) (he : exec i s = .next t)
    (ho : ∀ v u, Frame R F M u (operate i.mnemonic v u)) : Frame R F M s t := by
  have hc := hops _ hi
  rw [exec_reader i s hc] at he
  cases he
  have hs := fetched_source i s hc
  refine ((of_untouched hs.untouched).trans (ho _ _)).stall _ fun hw => ?_
  rw [operate_bus, hs.dir] at hw
  cases hw

/-- A storing instruction changes no register and no flag, and the one byte at its effective address. -/
theorem of_storer (hops : ∀ op ∈ ops, op.isStorer = true) (hi : i.mnemonic ∈ ops)
    (he : exec i s = .next t) (ha : (i.address s).1 ∈ M) : Frame R F M s t := by
  rw [exec_storer i s (hops _ hi)] at he
  cases he
  refine ((of_untouched (.address i s)).memWrite _ ha).stall _ fun _ => ?_
  rwa [memWrite_bus]

/-- A read-modify-write instruction on memory has the frame of its function, and changes the one byte at its effective
address. -/
theorem of_modifier (hops : ∀ op ∈ ops, op.isModifier = true) (hi : i.mnemonic ∈ ops) (hm : i.mode ≠ .acc)
    (he : exec i s = .next t) (ho : ∀ v u, Frame R F M u (modify i.mnemonic v u).2) (ha : (i.address s).1 ∈ M) :
    Frame R F M s t := by
  rw [exec_modifier i s (hops _ hi) hm] at he
  cases he
  have hu := (Untouched.address i s).trans (.memRead _ (i.address s).1)
  refine (((of_untouched hu).trans (ho _ _)).memWrite _ ha).stall _ fun _ => ?_
  rwa [memWrite_bus]

end

end Frame

/-! ## The accumulator mode -/

theorem mnemonic_of_mode_acc {i : Instr} (h : i.mode = .acc) : i.mnemonic ∈ [.asl, .lsr, .rol, .ror] := by
  cases i with
  | aslAcc | lsrAcc | rolAcc | rorAcc => decide
  | _ => cases h

theorem mode_ne_acc_of_step {i : Instr} (h : i.mnemonic ∈ [.inc, .dec]) : i.mode ≠ .acc := by
  have disjoint : ∀ op ∈ [Mnemonic.inc, .dec], op ∉ [Mnemonic.asl, .lsr, .rol, .ror] := by decide
  exact fun hm => disjoint _ h (mnemonic_of_mode_acc hm)

end Sys2Proof.Machine

section

open Sys2Proof Sys2Proof.Machine State

/-- Settles O33: the immediate forms carry their byte; every other form reads at its effective address. -/
theorem operandByteOfEachForm : Obligations.OperandByteOfEachForm := by
  refine ⟨fun nn s i hi => ?_, fun i s hm => source_value_of_address hm⟩
  fin_cases hi <;> rfl

/-- Settles O35: each effect is its register write and `SetNZ` of the operand byte. -/
theorem loadsTakeTheOperandByte : Obligations.LoadsTakeTheOperandByte := by
  refine ⟨fun i s h => ?_, fun i s h => ?_, fun i s h => ?_⟩
  · obtain ⟨t, he, hr, hflags⟩ := exec_reader_setNZ (i := i) (s := s) (u := (i.source s).2.setA (i.source s).1)
      (by rw [h]; rfl) (by rw [h]; rfl)
    exact ⟨t, he, hr .a, hflags⟩
  · obtain ⟨t, he, hr, hflags⟩ := exec_reader_setNZ (i := i) (s := s) (u := (i.source s).2.setX (i.source s).1)
      (by rw [h]; rfl) (by rw [h]; rfl)
    exact ⟨t, he, hr .x, hflags⟩
  · obtain ⟨t, he, hr, hflags⟩ := exec_reader_setNZ (i := i) (s := s) (u := (i.source s).2.setY (i.source s).1)
      (by rw [h]; rfl) (by rw [h]; rfl)
    exact ⟨t, he, hr .y, hflags⟩

/-- Settles O36: one write of the register at the effective address, which the stall ticks repeat. -/
theorem storesWriteOneByte : Obligations.StoresWriteOneByte := by
  refine ⟨fun i s h hm => ?_, fun i s h hm => ?_, fun i s h hm => ?_⟩ <;>
    simpa only [h, sourceByte] using exec_storer_stored (i := i) (by rw [h]; rfl) hm

/-- Settles O55: the reading class, with the frame of each effect. -/
theorem loadAndReadFrames : Obligations.LoadAndReadFrames := by
  refine ⟨fun i s t hi he => ?_, fun i s t hi he => ?_, fun i s t hi he => ?_, fun i s t hi he => ?_,
    fun i s t hi he => ?_, fun i s t hi he => ?_⟩
  all_goals refine .of_reader (by decide) hi he fun v u => ?_
  · exact .operate_accumulator _ v u hi
  · rw [List.mem_singleton.mp hi]
    exact .operate_ldx v u
  · rw [List.mem_singleton.mp hi]
    exact .operate_ldy v u
  · exact .operate_addition _ v u hi
  · exact .operate_comparison _ v u hi
  · rw [List.mem_singleton.mp hi]
    exact .operate_bit v u

/-- Settles O56: the storing class, and the read-modify-write class on memory with the frame of each function. -/
theorem storeAndModifyFrames : Obligations.StoreAndModifyFrames := by
  refine ⟨fun i s t hi he => ?_, fun i s t hi he => ?_, fun i s t hi hm he => ?_⟩
  · exact .of_storer (by decide) hi he (List.mem_singleton_self _)
  · exact .of_modifier (by decide) hi (mode_ne_acc_of_step hi) he (fun v u => .modify_step _ v u hi)
      (List.mem_singleton_self _)
  · exact .of_modifier (by decide) hi hm he (fun v u => .modify_shift _ v u hi) (List.mem_singleton_self _)

end

/-! PROOFS, 43_transfer_stack.md: `Push` and `Pull` (R150, R151), the transfers (R156 to R161), PHA, PHP, PLA and PLP (R152
to R155), and the frames of the instructions without an operand in memory and of control transfer. What the stack
operations do is said first; the frames go on from `namespace Frame` of 42_load_store.md. -/

namespace Sys2Proof.Machine

open State

/-! ## The stack operations -/

theorem stackAddr_toNat (sp : Byte) : (stackAddr sp).toNat = 256 + sp.toNat := by
  have hsp : (sp.setWidth 16).toNat = sp.toNat := BitVec.toNat_setWidth_of_le (by decide)
  rw [stackAddr, BitVec.toNat_or, hsp]
  exact (Nat.two_pow_add_eq_or_of_lt (i := 8) sp.isLt 1).symm

namespace State

section
variable (s : State) (v : Byte)

@[simp] theorem push_sp : (s.push v).sp = s.sp - 1 := memWrite_sp _ _ _
@[simp] theorem push_p : (s.push v).p = s.p := memWrite_p _ _ _
@[simp] theorem push_pc : (s.push v).pc = s.pc := memWrite_pc _ _ _
@[simp] theorem push_cyc : (s.push v).cyc = s.cyc + 1 := memWrite_cyc _ _ _
@[simp] theorem push_diags : (s.push v).diags = s.diags := memWrite_diags _ _ _
@[simp] theorem push_bus : (s.push v).bus = ⟨.write, stackAddr s.sp, v⟩ := memWrite_bus _ _ _
@[simp] theorem push_mem : (s.push v).mem = s.stored s.mem (stackAddr s.sp) v := memWrite_mem _ _ _
@[simp] theorem push_backed (a : Word) : (s.push v).backed a = s.backed a := memWrite_backed _ _ _ _

@[simp] theorem pull_value : s.pull.1 = s.serve s.bus.value (stackAddr (s.sp + 1)) := memRead_value _ _
@[simp] theorem pull_sp : s.pull.2.sp = s.sp + 1 := memRead_sp _ _
@[simp] theorem pull_pc : s.pull.2.pc = s.pc := memRead_pc _ _
@[simp] theorem pull_cyc : s.pull.2.cyc = s.cyc + 1 := memRead_cyc _ _
@[simp] theorem pull_diags : s.pull.2.diags = s.diags := memRead_diags _ _
@[simp] theorem pull_mem : s.pull.2.mem = s.mem := memRead_mem _ _
@[simp] theorem pull_bus_dir : s.pull.2.bus.dir = .read := congrArg Bus.dir (memRead_bus _ _)
@[simp] theorem pull_flag (f : Flag) : s.pull.2.flag f = s.flag f := memRead_flag _ _ f

/-- However long the pushed byte stays on the bus, it is stored once (20_memory.md R47). -/
theorem stall_push_mem (hm : s.mem.wf = true) (n : Nat) :
    ((s.push v).stall n).mem = s.stored s.mem (stackAddr s.sp) v :=
  stall_mem_of_memWrite (s := s.setSp (s.sp - 1)) n hm _ v

/-- A pull goes back to the address the last push stored at. -/
theorem push_pull_value (hm : s.mem.wf = true) (hb : s.backed (stackAddr s.sp) = true) : (s.push v).pull.1 = v := by
  have hsp : (s.push v).sp + 1 = s.sp := by rw [push_sp, BitVec.sub_add_cancel]
  rw [pull_value, hsp, serve_of_backed (by rwa [push_backed]), push_mem, stored, if_pos hb, Memory.read_write_same hm]

/-- Bit 5 reads as 1 whatever P stores, so PHP sets both bits (43_transfer_stack.md R153). -/
theorem pushedStatus_eq : s.pushedStatus = s.p ||| 0x30 := by
  rw [pushedStatus, status, BitVec.or_assoc]
  rfl

end

end State

/-! ## The completion of transfers, pushes and pulls -/

section
variable {i : Instr} {s : State}

/-- An instruction that ends in `SetNZ` of a byte and its stall completes with N and Z of that byte, and with the registers
and the PC the rest of its effect leaves. -/
theorem exec_setNZ (u : State) {v : Byte} {n : Nat} (h : exec i s = .next ((u.setNZ v).stall n)) :
    ∃ t, exec i s = .next t ∧ (∀ r, t.reg r = u.reg r) ∧ t.flag .n = v.msb ∧ t.flag .z = decide (v = 0) ∧
      t.pc = u.pc := by
  refine ⟨_, h, fun r => ?_, ?_, ?_, ?_⟩
  · rw [stall_reg, setNZ_reg]
  · rw [stall_flag, setNZ_flag]
    rfl
  · rw [stall_flag, setNZ_flag]
    rfl
  · rw [stall_pc, setNZ_pc]

/-- `exec_setNZ` for the one register a transfer writes. -/
theorem exec_setNZ_reg (r : Reg) (u : State) {v : Byte} {n : Nat} (h : exec i s = .next ((u.setNZ v).stall n)) :
    ∃ t, exec i s = .next t ∧ t.reg r = u.reg r ∧ t.flag .n = v.msb ∧ t.flag .z = decide (v = 0) ∧ t.pc = u.pc := by
  obtain ⟨t, he, hr, hrest⟩ := exec_setNZ u h
  exact ⟨t, he, hr r, hrest⟩

/-- PHA and PHP complete with their byte stored at the stack address, and S one less. -/
theorem exec_pusher_stored (h : i.mnemonic.isPusher = true) (hm : s.mem.wf = true) :
    ∃ t, exec i s = .next t ∧ t.mem = s.stored s.mem (stackAddr s.sp) (sourceByte i.mnemonic s) ∧ t.sp = s.sp - 1 ∧
      t.p = s.p ∧ t.pc = s.pc := by
  refine ⟨_, exec_pusher i s h, stall_push_mem s _ hm _, ?_, ?_, ?_⟩ <;> simp [pushOp]

end

/-! ## Frames of the stack and register operations -/

namespace Frame

variable {R : List Reg} {F : List Flag} {M : List Word} {s t u : State}

theorem mono_regs {R' : List Reg} (h : Frame R F M s u) (hR : R ⊆ R') : Frame R' F M s u where
  __ := h
  regs r hr := h.regs r fun hmem => hr (hR hmem)

theorem setSp (h : Frame R F M s u) (v : Byte) (hsp : .sp ∈ R) : Frame R F M s (u.setSp v) where
  __ := h
  regs r hr := by
    cases r with
    | sp => exact absurd hsp hr
    | _ => exact h.regs _ hr

theorem setPc (h : Frame R F M s u) (w : Word) : Frame R F M s (u.setPc w) :=
  h.trans (of_untouched (.setPc u w))

theorem setExtra (h : Frame R F M s u) (n : Nat) : Frame R F M s (u.setExtra n) where
  __ := h
  regs r hr := by cases r <;> exact h.regs _ hr

/-- A pulled status leaves B and, where it is 1 as 10_state.md R31 (e) says, U. -/
theorem restoreStatus (h : Frame R F M s u) (v : Byte) (hu : u.flag .u = true) (hF : statusFlags ⊆ F) :
    Frame R F M s (u.restoreStatus v) where
  __ := h
  regs r hr := by cases r <;> exact h.regs _ hr
  flags f hf := by
    rw [restoreStatus_flag]
    cases f with
    | b => exact h.flags .b hf
    | u => exact hu.symm.trans (h.flags .u hf)
    | _ => exact absurd (hF (by decide)) hf

theorem push (h : Frame R F M s u) (v : Byte) (hsp : .sp ∈ R) (ha : stackAddr u.sp ∈ M) : Frame R F M s (u.push v) :=
  (h.setSp _ hsp).memWrite v ha

theorem pull (h : Frame R F M s u) (hsp : .sp ∈ R) : Frame R F M s u.pull.2 :=
  (h.setSp _ hsp).trans (of_untouched (.memRead _ _))

/-- Stall ticks over a held read touch nothing. -/
theorem stall_of_read (h : Frame R F M s u) (n : Nat) (hd : u.bus.dir = .read) : Frame R F M s (u.stall n) :=
  h.stall n fun hw => nomatch hd.symm.trans hw

/-! ## The effects of the register and flag instructions

A transfer or a register count has the effect of a load of the byte it moves. -/

section
variable (op : Mnemonic) (v : Byte) (u : State)

theorem operate_into_x (hop : op ∈ [.tax, .tsx, .inx, .dex]) : Frame [.x] [.n, .z] M u (operate op v u) := by
  obtain ⟨w, h⟩ : ∃ w, operate op v u = operate .ldx w u := by fin_cases hop <;> exact ⟨_, rfl⟩
  rw [h]
  exact operate_ldx w u

theorem operate_into_y (hop : op ∈ [.tay, .iny, .dey]) : Frame [.y] [.n, .z] M u (operate op v u) := by
  obtain ⟨w, h⟩ : ∃ w, operate op v u = operate .ldy w u := by fin_cases hop <;> exact ⟨_, rfl⟩
  rw [h]
  exact operate_ldy w u

theorem operate_into_a (hop : op ∈ [.txa, .tya]) : Frame [.a] [.n, .z] M u (operate op v u) := by
  obtain ⟨w, h⟩ : ∃ w, operate op v u = operate .lda w u := by fin_cases hop <;> exact ⟨_, rfl⟩
  rw [h]
  exact operate_accumulator .lda w u (by decide)

end

end Frame

/-- The instructions that write one flag and nothing else (47_flags_system.md R222). -/
def flagWriters : Flag → List Mnemonic
  | .c => [.clc, .sec]
  | .i => [.cli, .sei]
  | .v => [.clv]
  | .d => [.cld, .sed]
  | .z | .b | .u | .n => []

theorem operate_flagWriter {f : Flag} {op : Mnemonic} (hop : op ∈ flagWriters f) (v : Byte) (s : State) :
    ∃ b, operate op v s = s.setFlag f b := by
  cases f <;> fin_cases hop <;> exact ⟨_, rfl⟩

/-! ## The classes without an operand in memory -/

theorem modify_bus (op : Mnemonic) (v : Byte) (s : State) : (modify op v s).2.bus = s.bus := by
  obtain ⟨p, h⟩ := modify_eq_setP s op v
  rw [h, setP_bus]

theorem mode_eq_rel_or_isJump {i : Instr} (h : i.mnemonic ∈ [.bcc, .bcs, .beq, .bne, .bmi, .bpl, .bvc, .bvs, .jmp]) :
    i.mode = .rel ∨ i.mnemonic.isJump = true := by
  cases i with
  | bcc | bcs | beq | bne | bmi | bpl | bvc | bvs => exact .inl rfl
  | jmpAbs | jmpInd => exact .inr rfl
  | _ => simp [Instr.mnemonic] at h

theorem hasAddress_of_isJump {i : Instr} (h : i.mnemonic.isJump = true) : i.mode.hasAddress = true := by
  cases i with
  | jmpAbs | jmpInd => rfl
  | _ => cases h

theorem eq_jsr_of_mnemonic {i : Instr} (h : i.mnemonic = .jsr) : ∃ addr, i = .jsr addr := by
  cases i with
  | jsr addr => exact ⟨addr, rfl⟩
  | _ => cases h

theorem eq_rts_of_mnemonic {i : Instr} (h : i.mnemonic = .rts) : i = .rts := by
  cases i with
  | rts => rfl
  | _ => cases h

theorem eq_rti_of_mnemonic {i : Instr} (h : i.mnemonic = .rti) : i = .rti := by
  cases i with
  | rti => rfl
  | _ => cases h

namespace Frame

variable {R : List Reg} {F : List Flag} {M : List Word} {i : Instr} {s t : State} {ops : List Mnemonic}

/-- A register or flag instruction makes no access: its stall holds whatever read was on the bus. -/
theorem of_registerOnly (hops : ∀ op ∈ ops, op.isRegisterOnly = true) (hi : i.mnemonic ∈ ops) (hd : s.bus.dir = .read)
    (he : exec i s = .next t) (ho : Frame R F M s (operate i.mnemonic 0 s)) : Frame R F M s t := by
  rw [exec_registerOnly i s (hops _ hi) 0] at he
  cases he
  exact ho.stall_of_read _ (by rw [operate_bus, hd])

theorem of_flagWriter {f : Flag} (hops : ∀ op ∈ flagWriters f, op.isRegisterOnly = true)
    (hi : i.mnemonic ∈ flagWriters f) (hd : s.bus.dir = .read) (he : exec i s = .next t) : Frame R [f] M s t := by
  obtain ⟨b, hb⟩ := operate_flagWriter hi 0 s
  refine of_registerOnly hops hi hd he ?_
  rw [hb]
  exact (refl s).setFlag b (List.mem_singleton_self f)

theorem of_accumulator (hm : i.mode = .acc) (hd : s.bus.dir = .read) (he : exec i s = .next t) :
    Frame [.a] [.n, .z, .c] M s t := by
  rw [exec_accumulator i s hm] at he
  cases he
  have hshift := modify_shift (M := M) _ s.a s (mnemonic_of_mode_acc hm)
  refine ((hshift.mono_regs (List.nil_subset _)).setA _ (by decide)).stall_of_read _ ?_
  rw [setA_bus, modify_bus, hd]

/-- A push leaves its own write on the bus, so its stall touches no other byte. -/
theorem of_pusher (hops : ∀ op ∈ ops, op.isPusher = true) (hi : i.mnemonic ∈ ops) (he : exec i s = .next t) :
    Frame [.sp] F [stackAddr s.sp] s t := by
  rw [exec_pusher i s (hops _ hi)] at he
  cases he
  refine ((refl s).push _ (by decide) (List.mem_singleton_self _)).stall _ fun _ => ?_
  rw [push_bus]
  exact List.mem_singleton_self _

theorem of_puller (hop : i.mnemonic.isPuller = true) (he : exec i s = .next t)
    (ho : Frame R F M s (operate i.mnemonic s.pull.1 s.pull.2)) : Frame R F M s t := by
  rw [exec_puller i s hop] at he
  cases he
  exact ho.stall_of_read _ (by rw [operate_bus, pull_bus_dir])

/-- A branch writes PC and the count of the page crossing, taken or not. -/
theorem of_branch (hm : i.mode = .rel) (he : exec i s = .next t) : Frame R F M s t := by
  rw [exec_branch i s hm] at he
  cases he
  have hread : (i.address s).2.bus.dir = .read := (fetched_address i s (by rw [hm]; rfl)).dir
  have ha : Frame R F M s (i.address s).2 := of_untouched (.address i s)
  split
  · split
    · exact ((ha.setExtra _).setPc _).stall_of_read _ hread
    · exact (ha.setPc _).stall_of_read _ hread
  · exact ha.stall_of_read _ hread

theorem of_jump (hj : i.mnemonic.isJump = true) (he : exec i s = .next t) : Frame R F M s t := by
  rw [exec_jump i s hj] at he
  cases he
  exact ((of_untouched (.address i s)).setPc _).stall_of_read _ (fetched_address i s (hasAddress_of_isJump hj)).dir

/-- The two pushes of JSR are at successive addresses of the stack page; the second stays on the bus. -/
theorem of_jsr {addr : Word} (he : exec (.jsr addr) s = .next t) :
    Frame [.sp] F [stackAddr s.sp, stackAddr (s.sp - 1)] s t := by
  have hu : Untouched s (absolute addr s).2 := (fetched_absolute addr s).untouched
  cases he
  refine ((((of_untouched hu).push _ (by decide) ?_).push _ (by decide) ?_).setPc _).stall _ fun _ => ?_
  all_goals simp [hu.sp]

theorem of_rts (he : exec .rts s = .next t) : Frame [.sp] F M s t := by
  cases he
  exact ((((refl s).pull (by decide)).pull (by decide)).setPc _).stall_of_read _ (pull_bus_dir s.pull.2)

theorem of_rti (hu : s.flag .u = true) (he : exec .rti s = .next t) : Frame [.sp] statusFlags M s t := by
  cases he
  have hstatus : Frame [.sp] statusFlags M s (s.pull.2.restoreStatus s.pull.1) :=
    ((refl s).pull (by decide)).restoreStatus _ ((pull_flag s .u).trans hu) (List.Subset.refl _)
  refine (((hstatus.pull (by decide)).pull (by decide)).setPc _).stall_of_read _ ?_
  rw [setPc_bus, pull_bus_dir]

end Frame

end Sys2Proof.Machine

section

open Sys2Proof Sys2Proof.Machine State

/-- Settles O25: both operations are one bus access at the stack address; the pull comes back to the address of the push. -/
theorem pushAndPull : Obligations.PushAndPull := by
  intro s v
  have hpush : (s.sp - 1).toNat = (s.sp.toNat + 255) % 256 := by
    rw [BitVec.toNat_sub, Nat.add_comm]
    rfl
  have hpull : (s.sp + 1).toNat = (s.sp.toNat + 1) % 256 := BitVec.toNat_add s.sp 1
  refine ⟨stackAddr_toNat s.sp, rfl, ⟨?_, push_mem s v, push_cyc s v, push_diags s v, push_bus s v⟩,
    ⟨?_, pull_value s, pull_cyc s, pull_diags s, pull_mem s⟩, fun hm hb => ⟨push_pull_value s v hm hb, ?_⟩⟩
  · rw [push_sp, hpush]
  · rw [pull_sp, hpull]
  · rw [pull_sp, push_sp, BitVec.sub_add_cancel]

/-- Settles O37: each transfer but TXS is one register write and `SetNZ` of the byte copied. -/
theorem transfersCopyARegister : Obligations.TransfersCopyARegister := fun s =>
  ⟨exec_setNZ_reg .x (s.setX s.sp) rfl, exec_setNZ_reg .x (s.setX s.a) rfl, exec_setNZ_reg .y (s.setY s.a) rfl,
    exec_setNZ_reg .a (s.setA s.x) rfl, exec_setNZ_reg .a (s.setA s.y) rfl,
    _, rfl, stall_sp _ _, stall_p _ _, stall_pc _ _⟩

/-- Settles O38: one push, which the stall ticks repeat. -/
theorem pushesStoreOnTheStack : Obligations.PushesStoreOnTheStack := by
  refine fun s hm => ⟨exec_pusher_stored (i := .pha) rfl hm, ?_⟩
  rw [← pushedStatus_eq]
  exact exec_pusher_stored (i := .php) rfl hm

/-- Settles O39: one pull; PLA writes A and `SetNZ` of the byte, PLP restores the status from it. -/
theorem pullsLoadFromTheStack : Obligations.PullsLoadFromTheStack := by
  intro s v
  have hv : s.pull.1 = v := pull_value s
  constructor
  · obtain ⟨t, he, hr, hn, hz, hpc⟩ := exec_setNZ (i := .pla) (s := s) (s.pull.2.setA s.pull.1) rfl
    rw [hv] at hn hz
    exact ⟨t, he, (hr .a).trans hv, hn, hz, (hr .sp).trans (pull_sp s), hpc.trans (pull_pc s)⟩
  · refine ⟨((s.pull.2).restoreStatus s.pull.1).stall 4, rfl, fun f => ?_, ?_, ?_⟩
    · rw [stall_flag, restoreStatus_flag, pull_flag, hv]
    · rw [stall_sp, restoreStatus_sp, pull_sp]
    · rw [stall_pc, restoreStatus_pc, pull_pc]

/-- Settles O57: the register and flag class with the frame of each effect, and the accumulator shifts. -/
theorem registerInstructionFrames : Obligations.RegisterInstructionFrames := by
  refine ⟨fun i s t hi hd he => ?_, fun i s t hi hd he => ?_, fun i s t hi hd he => ?_, fun i s t hi hd he => ?_,
    fun i s t hm hd he => .of_accumulator hm hd he, fun i s t hi hd he => .of_flagWriter (f := .c) (by decide) hi hd he,
    fun i s t hi hd he => .of_flagWriter (f := .i) (by decide) hi hd he,
    fun i s t hi hd he => .of_flagWriter (f := .v) (by decide) hi hd he,
    fun i s t hi hd he => .of_flagWriter (f := .d) (by decide) hi hd he, fun i s t hi hd he => ?_⟩
  all_goals refine .of_registerOnly (by decide) hi hd he ?_
  · exact .operate_into_x _ 0 s hi
  · exact .operate_into_y _ 0 s hi
  · exact .operate_into_a _ 0 s hi
  · rw [List.mem_singleton.mp hi]
    exact (Frame.refl s).setSp s.x (by decide)
  · rw [List.mem_singleton.mp hi]
    exact .refl s

/-- Settles O58: class by class; only a push writes memory, and its stall repeats no other write. -/
theorem stackAndControlFrames : Obligations.StackAndControlFrames := by
  refine ⟨fun i s t hi he => .of_pusher (by decide) hi he, fun i s t hi he => ?_, fun i s t hi hu he => ?_,
    fun i s t hi he => ?_, fun i s t hi he => ?_, fun i s t hi he => ?_, fun i s t hi hu he => ?_⟩
  · refine .of_puller (by rw [List.mem_singleton.mp hi]; rfl) he ?_
    rw [List.mem_singleton.mp hi]
    exact (((Frame.refl s).pull (by decide)).setA _ (by decide)).setNZ _ (by decide) (by decide)
  · refine .of_puller (by rw [List.mem_singleton.mp hi]; rfl) he ?_
    rw [List.mem_singleton.mp hi]
    exact ((Frame.refl s).pull (by decide)).restoreStatus _ ((pull_flag s .u).trans hu) (List.Subset.refl _)
  · obtain hm | hj := mode_eq_rel_or_isJump hi
    · exact .of_branch hm he
    · exact .of_jump hj he
  · obtain ⟨addr, rfl⟩ := eq_jsr_of_mnemonic (List.mem_singleton.mp hi)
    exact .of_jsr he
  · cases eq_rts_of_mnemonic (List.mem_singleton.mp hi)
    exact .of_rts he
  · cases eq_rti_of_mnemonic (List.mem_singleton.mp hi)
    exact .of_rti hu he

end

/-! PROOFS, 44_arithmetic_logic.md: ADC and SBC (R165 to R167), AND, ORA and EOR (R168 to R170), the compares (R171 to R173)
and BIT (R174). A mode routine changes nothing an effect reads, so a reading instruction completes with its effect on the
state it began in; what that effect is as numbers is a fact about bytes, said apart. -/

namespace Sys2Proof.Machine

open State

/-! ## Signed overflow and the complement as numbers -/

/-- The sign-bit test is the signed sum leaving -128 to 127 (44_arithmetic_logic.md R166). -/
theorem overflow_eq_signed_sum (a m : Byte) {c : Nat} (hc : c ≤ 1) :
    overflow a m (BitVec.ofNat 8 (a.toNat + m.toNat + c)) =
      decide (a.toInt + m.toInt + c < -128 ∨ a.toInt + m.toInt + c > 127) := by
  have ha := a.isLt
  have hm := m.isLt
  rw [overflow_eq, ← Bool.decide_and, decide_eq_decide]
  simp only [BitVec.msb_eq_decide, BitVec.toInt_eq_toNat_cond, BitVec.toNat_ofNat, ne_eq, decide_eq_decide]
  omega

theorem complement_toNat (m : Byte) : (m ^^^ 0xFF).toNat = 255 - m.toNat := by
  rw [show (0xFF : Byte) = BitVec.allOnes 8 from rfl, BitVec.xor_allOnes, BitVec.toNat_not]

theorem complement_toInt (m : Byte) : (m ^^^ 0xFF).toInt = -1 - m.toInt := by
  have hm := m.isLt
  rw [BitVec.toInt_eq_toNat_cond, BitVec.toInt_eq_toNat_cond, complement_toNat]
  omega

/-- Bit 7 of a difference, as a number (44_arithmetic_logic.md R171). -/
theorem msb_sub (r m : Byte) : (r - m).msb = decide ((r.toNat + 256 - m.toNat) % 256 ≥ 128) := by
  have hm := m.isLt
  rw [BitVec.msb_eq_decide, BitVec.toNat_sub, decide_eq_decide]
  omega

/-! ## The effect of a reading instruction on the state it began in -/

/-- An effect reads only what a mode routine leaves unchanged. -/
theorem Untouched.operate {s t : State} (h : Untouched s t) (op : Mnemonic) (v : Byte) :
    Untouched (operate op v s) (operate op v t) := by
  cases s
  cases t
  obtain ⟨rfl, rfl, rfl, rfl, rfl, rfl, rfl, rfl, rfl, rfl⟩ := h
  cases op <;> exact ⟨rfl, rfl, rfl, rfl, rfl, rfl, rfl, rfl, rfl, rfl⟩

section
variable {i : Instr} {s : State}

/-- A reading instruction completes with the registers and flags its effect on the operand byte gives, and with PC past
the operand bytes (44_arithmetic_logic.md R176). -/
theorem exec_reader_effect (h : i.mnemonic.isReader = true) {u : State}
    (ho : operate i.mnemonic (i.source s).1 s = u) :
    ∃ t, exec i s = .next t ∧ (∀ r, t.reg r = u.reg r) ∧ (∀ f, t.flag f = u.flag f) ∧
      t.pc = s.pc + BitVec.ofNat 16 i.mode.operandBytes := by
  have hs := fetched_source i s h
  have hu := hs.untouched.operate i.mnemonic (i.source s).1
  rw [ho] at hu
  refine ⟨_, exec_reader i s h, fun r => ?_, fun f => ?_, ?_⟩
  · rw [readOp, stall_reg, hu.frame.regs r List.not_mem_nil]
  · rw [readOp, stall_flag, hu.flag]
  · rw [readOp, stall_pc, operate_pc, hs.pc]

/-- ADC and SBC differ in the addend alone (44_arithmetic_logic.md R167). -/
theorem exec_addWithCarry (h : i.mnemonic.isReader = true) {m : Byte}
    (ho : operate i.mnemonic (i.source s).1 s = s.addWithCarry m) :
    ∃ t, exec i s = .next t ∧ t.a = BitVec.ofNat 8 (s.sum m) ∧ t.flag .c = decide (s.sum m > 255) ∧
      t.flag .v = decide (s.a.toInt + m.toInt + s.carry < -128 ∨ s.a.toInt + m.toInt + s.carry > 127) ∧
      t.flag .n = t.a.msb ∧ t.flag .z = decide (t.a = 0) ∧ t.flag .d = s.flag .d ∧
      t.pc = s.pc + BitVec.ofNat 16 i.mode.operandBytes := by
  obtain ⟨t, he, hreg, hflag, hpc⟩ := exec_reader_effect h ho
  have ha : t.a = BitVec.ofNat 8 (s.sum m) := (hreg .a).trans (addWithCarry_a s m)
  simp only [addWithCarry_flag, ← ha] at hflag
  have hv : t.flag .v = overflow s.a m t.a := hflag .v
  rw [ha, sum, overflow_eq_signed_sum s.a m s.carry_le] at hv
  exact ⟨t, he, ha, hflag .c, hv, hflag .n, hflag .z, hflag .d, hpc⟩

/-- The logic instructions differ in the byte written alone. -/
theorem exec_setA_setNZ (h : i.mnemonic.isReader = true) {w : Byte}
    (ho : operate i.mnemonic (i.source s).1 s = (s.setA w).setNZ w) :
    ∃ t, exec i s = .next t ∧ t.a = w ∧ t.flag .n = t.a.msb ∧ t.flag .z = decide (t.a = 0) ∧
      t.pc = s.pc + BitVec.ofNat 16 i.mode.operandBytes := by
  obtain ⟨t, he, hreg, hflag, hpc⟩ := exec_reader_effect h ho
  have ha : t.a = w := (hreg .a).trans (setNZ_reg w _ .a)
  simp only [setNZ_flag, ← ha] at hflag
  exact ⟨t, he, ha, hflag .n, hflag .z, hpc⟩

/-- The compares differ in the register alone. -/
theorem exec_compare (h : i.mnemonic.isReader = true) {r m : Byte}
    (ho : operate i.mnemonic (i.source s).1 s = s.compare r m) :
    ∃ t, exec i s = .next t ∧ t.flag .c = decide (m.toNat ≤ r.toNat) ∧ t.flag .z = decide (r = m) ∧
      t.flag .n = decide ((r.toNat + 256 - m.toNat) % 256 ≥ 128) ∧
      t.pc = s.pc + BitVec.ofNat 16 i.mode.operandBytes := by
  obtain ⟨t, he, -, hflag, hpc⟩ := exec_reader_effect h ho
  simp only [compare_flag, msb_sub] at hflag
  exact ⟨t, he, hflag .c, hflag .z, hflag .n, hpc⟩

end

end Sys2Proof.Machine

section

open Sys2Proof Sys2Proof.Machine State

/-- Settles O40: one addition with carry, for SBC of the operand's complement, 255 - M unsigned and -1 - M signed. -/
theorem addAndSubtractWithCarry : Obligations.AddAndSubtractWithCarry := by
  constructor <;> intro i s h m
  · obtain ⟨t, he, ha, hrest⟩ := exec_addWithCarry (i := i) (s := s) (m := m) (by rw [h]; rfl) (by rw [h]; rfl)
    exact ⟨t, he, congrArg BitVec.toNat ha, hrest⟩
  · obtain ⟨t, he, ha, hc, hv, hrest⟩ :=
      exec_addWithCarry (i := i) (s := s) (m := m ^^^ 0xFF) (by rw [h]; rfl) (by rw [h]; rfl)
    have hm := m.isLt
    have hcarry := s.carry_le
    have hsum : s.sum (m ^^^ 0xFF) = s.a.toNat + (255 - m.toNat) + s.carry := by rw [sum, complement_toNat]
    refine ⟨t, he, ?_, ?_, ?_, hrest⟩
    · rw [ha, BitVec.toNat_ofNat, hsum]
      omega
    · rw [hc, hsum, decide_eq_decide]
      omega
    · rw [hv, complement_toInt, decide_eq_decide]
      omega

/-- Settles O41: each effect is a write of A and `SetNZ` of the byte written. -/
theorem logicIntoAccumulator : Obligations.LogicIntoAccumulator :=
  ⟨fun i s h => exec_setA_setNZ (by rw [h]; rfl) (by rw [h]; rfl),
    fun i s h => exec_setA_setNZ (by rw [h]; rfl) (by rw [h]; rfl),
    fun i s h => exec_setA_setNZ (by rw [h]; rfl) (by rw [h]; rfl)⟩

/-- Settles O42: each effect is `compare` of its register with the operand byte. -/
theorem comparesSetFlags : Obligations.ComparesSetFlags :=
  ⟨fun i s h => exec_compare (by rw [h]; rfl) (by rw [h]; rfl),
    fun i s h => exec_compare (by rw [h]; rfl) (by rw [h]; rfl),
    fun i s h => exec_compare (by rw [h]; rfl) (by rw [h]; rfl)⟩

/-- Settles O43: the effect writes three flags and no register. -/
theorem bitTestSetsFlags : Obligations.BitTestSetsFlags := by
  intro i s h
  obtain ⟨t, he, hreg, hflag, hpc⟩ :=
    exec_reader_effect (i := i) (s := s) (u := s.bitTest (i.source s).1) (by rw [h]; rfl) (by rw [h]; rfl)
  simp only [bitTest_flag] at hflag
  exact ⟨t, he, hflag .z, hflag .n, hflag .v, hreg .a, hpc⟩

end

/-! PROOFS, 45_incdec_shift.md: INC and DEC (R181, R182), the register counts (R183 to R186), and the shifts and rotates on A
and on memory (R187 to R190). The function of a read-modify-write reads nothing of the state but P, which no mode routine
changes, so an instruction of the class completes with its function applied to the state it began in; what a shift or a
rotate is as a number is a fact about bytes, said apart. -/

namespace Sys2Proof.Machine

open State

/-! ## Counting and shifting as numbers -/

theorem sub_one_toNat (v : Byte) : (v - 1).toNat = (v.toNat + 255) % 256 := by
  rw [BitVec.toNat_sub, Nat.add_comm]
  rfl

section
variable (v : Byte) {c : Nat}

theorem getLsbD_seven : v.getLsbD 7 = decide (v.toNat ≥ 128) := by
  rw [← BitVec.msb_eq_getLsbD_last v, BitVec.msb_eq_decide]

theorem getLsbD_zero : v.getLsbD 0 = decide (v.toNat % 2 = 1) := Nat.testBit_zero v.toNat

theorem shiftLeft_one_toNat : (v <<< 1).toNat = 2 * v.toNat % 256 := by
  rw [BitVec.toNat_shiftLeft, Nat.shiftLeft_eq, Nat.mul_comm]

theorem shiftRight_one_toNat : (v >>> 1).toNat = v.toNat / 2 := BitVec.toNat_ushiftRight v 1

/-- The old carry enters at bit 0, which the shift has cleared (45_incdec_shift.md R189). -/
theorem shiftLeft_or_carry_toNat (hc : c ≤ 1) :
    ((v <<< 1) ||| BitVec.ofNat 8 c).toNat = (2 * v.toNat + c) % 256 := by
  have hbit : c < 2 ^ 1 := by omega
  have hshift : 2 * v.toNat % 256 = (v.toNat % 128) <<< 1 := by
    rw [Nat.shiftLeft_eq]
    omega
  rw [BitVec.toNat_or, shiftLeft_one_toNat, BitVec.toNat_ofNat, hshift, Nat.mod_eq_of_lt (by omega : c < 2 ^ 8),
    ← Nat.shiftLeft_add_eq_or_of_lt hbit, Nat.shiftLeft_eq]
  omega

/-- The old carry enters at bit 7, which the shift has cleared (45_incdec_shift.md R190). -/
theorem shiftRight_or_carry_toNat (hc : c ≤ 1) :
    ((v >>> 1) ||| (BitVec.ofNat 8 c <<< 7)).toNat = v.toNat / 2 + 128 * c := by
  have hlow : v.toNat / 2 < 2 ^ 7 := by omega
  have hshift : (BitVec.ofNat 8 c <<< 7).toNat = c <<< 7 := by
    rw [BitVec.toNat_shiftLeft, BitVec.toNat_ofNat, Nat.shiftLeft_eq, Nat.shiftLeft_eq]
    omega
  rw [BitVec.toNat_or, shiftRight_one_toNat, hshift, Nat.or_comm, ← Nat.shiftLeft_add_eq_or_of_lt hlow, Nat.shiftLeft_eq]
  omega

end

/-! ## The functions of the read-modify-write class -/

/-- `f` of a read-modify-write reads nothing of the state but P, and writes nothing but P. -/
theorem Untouched.modify {s t : State} (h : Untouched s t) (op : Mnemonic) (v : Byte) :
    (modify op v t).1 = (modify op v s).1 ∧ Untouched (modify op v s).2 (modify op v t).2 := by
  cases s
  cases t
  obtain ⟨rfl, rfl, rfl, rfl, rfl, rfl, rfl, rfl, rfl, rfl⟩ := h
  cases op <;> exact ⟨rfl, rfl, rfl, rfl, rfl, rfl, rfl, rfl, rfl, rfl, rfl⟩

section
variable (op : Mnemonic) (v : Byte) (s : State)

theorem modify_mem : (modify op v s).2.mem = s.mem := by
  obtain ⟨p, h⟩ := modify_eq_setP s op v
  rw [h, setP_mem]

theorem modify_devices : (modify op v s).2.devices = s.devices := by
  obtain ⟨p, h⟩ := modify_eq_setP s op v
  rw [h, setP_devices]

theorem modify_pc : (modify op v s).2.pc = s.pc := by
  obtain ⟨p, h⟩ := modify_eq_setP s op v
  rw [h, setP_pc]

end

/-- A shift or rotate writes C, then N and Z from its result; the result and the carry out are the numbers of
`shiftResult`. -/
theorem modify_eq_shiftResult {op : Mnemonic} (hop : op ∈ [.asl, .lsr, .rol, .ror]) (v : Byte) (s : State) :
    ∃ (w : Byte) (c : Bool), modify op v s = (w, (s.setFlag .c c).setNZ w) ∧
      shiftResult op v s.carry = some (w.toNat, c) := by
  have result {n : Nat} {w : Byte} {b c : Bool} (hw : w.toNat = n) (hc : c = b) : some (n, b) = some (w.toNat, c) := by
    rw [hw, hc]
  fin_cases hop
  · exact ⟨_, _, rfl, result (shiftLeft_one_toNat v) (getLsbD_seven v)⟩
  · exact ⟨_, _, rfl, result (shiftRight_one_toNat v) (getLsbD_zero v)⟩
  · exact ⟨_, _, rfl, result (shiftLeft_or_carry_toNat v s.carry_le) (getLsbD_seven v)⟩
  · exact ⟨_, _, rfl, result (shiftRight_or_carry_toNat v s.carry_le) (getLsbD_zero v)⟩

/-! ## The completion of the class -/

section
variable {i : Instr} {s : State}

theorem mode_ne_imm_of_isModifier (h : i.mnemonic.isModifier = true) : i.mode ≠ .imm := by
  intro hm
  cases i with
  | ldaImm | ldxImm | ldyImm | adcImm | sbcImm | andImm | oraImm | eorImm | cmpImm | cpxImm | cpyImm => cases h
  | _ => cases hm

/-- A read-modify-write on memory completes with the result of its function on the operand byte stored at the effective
address, with the flags the function leaves, and with PC past the operand bytes (45_incdec_shift.md R180). -/
theorem exec_modifier_effect (h : i.mnemonic.isModifier = true) (ha : i.mode ≠ .acc) (hm : s.mem.wf = true) :
    ∃ t, exec i s = .next t ∧ t.mem = s.stored s.mem (i.address s).1 (modify i.mnemonic (i.source s).1 s).1 ∧
      (∀ f, t.flag f = (modify i.mnemonic (i.source s).1 s).2.flag f) ∧
      t.pc = s.pc + BitVec.ofNat 16 i.mode.operandBytes := by
  have hs := source_eq i s (mode_ne_imm_of_isModifier h)
  have hu : Untouched s (i.source s).2 := hs ▸ (Untouched.address i s).trans (.memRead _ _)
  obtain ⟨hw, hf⟩ := hu.modify i.mnemonic (i.source s).1
  have hexec : exec i s = .next (((modify i.mnemonic (i.source s).1 (i.source s).2).2.memWrite (i.address s).1
      (modify i.mnemonic (i.source s).1 s).1).stall i.total) := by
    rw [exec_modifier i s h ha, ← hw, hs]
    rfl
  refine ⟨_, hexec, ?_, fun f => ?_, ?_⟩
  · have hmem := (modify_mem i.mnemonic (i.source s).1 _).trans hu.mem
    have hdev := (modify_devices i.mnemonic (i.source s).1 _).trans hu.devices
    rw [stall_mem_of_memWrite _ (by rw [hmem, hm]), hmem, backed_congr s hdev, stored]
  · rw [stall_flag, memWrite_flag, hf.flag]
  · rw [stall_pc, memWrite_pc, modify_pc, source_state, memRead_pc, address_pc]

/-- Where the function ends in `SetNZ` of its result `w`, N and Z are those of `w`, and C is what the rest of it leaves. -/
theorem exec_modifier_setNZ (h : i.mnemonic.isModifier = true) (ha : i.mode ≠ .acc) (hm : s.mem.wf = true) {w : Byte}
    {u : State} (hf : modify i.mnemonic (i.source s).1 s = (w, u.setNZ w)) :
    ∃ t, exec i s = .next t ∧ t.mem = s.stored s.mem (i.address s).1 w ∧ t.flag .c = u.flag .c ∧ t.flag .n = w.msb ∧
      t.flag .z = decide (w = 0) ∧ t.pc = s.pc + BitVec.ofNat 16 i.mode.operandBytes := by
  obtain ⟨t, he, hmem, hflag, hpc⟩ := exec_modifier_effect h ha hm
  simp only [hf, setNZ_flag] at hmem hflag
  exact ⟨t, he, hmem, hflag .c, hflag .n, hflag .z, hpc⟩

/-- An accumulator form whose function ends in `SetNZ` of its result `w` completes with `w` in A, with N and Z of A, the
carry and the PC the rest of the function leaves. -/
theorem exec_accumulator_setNZ (ha : i.mode = .acc) {w : Byte} {u : State}
    (hf : modify i.mnemonic s.a s = (w, u.setNZ w)) :
    ∃ t, exec i s = .next t ∧ t.a = w ∧ t.flag .c = u.flag .c ∧ t.flag .n = t.a.msb ∧ t.flag .z = decide (t.a = 0) ∧
      t.pc = u.pc := by
  have hexec : exec i s = .next (((u.setNZ w).setA w).stall i.total) := by rw [exec_accumulator i s ha, modifyAccOp, hf]
  have hta : (((u.setNZ w).setA w).stall i.total).a = w := stall_a _ _
  have hflag (f : Flag) : (((u.setNZ w).setA w).stall i.total).flag f = (u.setNZ w).flag f := stall_flag _ _ f
  simp only [setNZ_flag] at hflag
  refine ⟨_, hexec, hta, hflag .c, ?_, ?_, ?_⟩
  · rw [hta]
    exact hflag .n
  · rw [hta]
    exact hflag .z
  · rw [stall_pc, setA_pc, setNZ_pc]

/-- The register counts differ in the register and in the number it comes to. -/
theorem exec_count (r : Reg) (u : State) {n k : Nat} (hk : (u.reg r).toNat = k)
    (h : exec i s = .next ((u.setNZ (u.reg r)).stall n)) :
    ∃ t, exec i s = .next t ∧ (t.reg r).toNat = k ∧ t.flag .n = (t.reg r).msb ∧ t.flag .z = decide (t.reg r = 0) ∧
      t.pc = u.pc := by
  obtain ⟨t, he, hr, hrest⟩ := exec_setNZ_reg r u h
  rw [← hr] at hk hrest
  exact ⟨t, he, hk, hrest⟩

end

end Sys2Proof.Machine

section

open Sys2Proof Sys2Proof.Machine State

/-- Settles O44: the function of each is the byte counted and `SetNZ` of it. -/
theorem memoryIncrementAndDecrement : Obligations.MemoryIncrementAndDecrement := by
  constructor <;> intro i s h hm
  all_goals
    obtain ⟨t, he, hmem, -, hrest⟩ := exec_modifier_setNZ (i := i) (s := s) (u := s) (by rw [h]; rfl)
      (mode_ne_acc_of_step (by rw [h]; decide)) hm (by rw [h]; rfl)
    exact ⟨t, he, hmem, hrest⟩

/-- Settles O45: each effect is a write of its register and `SetNZ` of the byte written. -/
theorem registerIncrementAndDecrement : Obligations.RegisterIncrementAndDecrement := fun s =>
  ⟨exec_count .x (s.setX (s.x + 1)) (BitVec.toNat_add s.x 1) rfl,
    exec_count .y (s.setY (s.y + 1)) (BitVec.toNat_add s.y 1) rfl,
    exec_count .x (s.setX (s.x - 1)) (sub_one_toNat s.x) rfl,
    exec_count .y (s.setY (s.y - 1)) (sub_one_toNat s.y) rfl⟩

/-- Settles O46: the four accumulator forms are the four shifts of A. -/
theorem shiftsOnTheAccumulator : Obligations.ShiftsOnTheAccumulator := by
  intro i s ha
  obtain ⟨w, c, hf, hshift⟩ := modify_eq_shiftResult (mnemonic_of_mode_acc ha) s.a s
  obtain ⟨t, he, hta, hc, hn, hz, hpc⟩ := exec_accumulator_setNZ ha hf
  refine ⟨t, w.toNat, c, he, hshift, congrArg BitVec.toNat hta, ?_, hn, hz, ?_⟩
  · rw [hc, setFlag_flag, if_pos rfl]
  · rw [hpc, setFlag_pc]

/-- Settles O47: the shift of the operand byte, written back once; the stall ticks repeat the write. -/
theorem shiftsOnMemory : Obligations.ShiftsOnMemory := by
  intro i s hop ha hm
  have hmodifier : ∀ op ∈ [Mnemonic.asl, .lsr, .rol, .ror], op.isModifier = true := by decide
  obtain ⟨w, c, hf, hshift⟩ := modify_eq_shiftResult hop (i.source s).1 s
  obtain ⟨t, he, hmem, hc, hrest⟩ := exec_modifier_setNZ (hmodifier _ hop) ha hm hf
  refine ⟨t, c, w, he, hshift, hmem, ?_, hrest⟩
  rw [hc, setFlag_flag, if_pos rfl]

end

/-! PROOFS, 46_control_transfer.md: the branches (R195 to R203), JMP (R204), JSR (R206), RTS and RTI (R207, R208), and that
RTS goes back to where JSR came from (R209). The eight branches are one shape over the condition on a flag; what `pullWord`
delivers is said once, for RTS and for RTI. -/

namespace Sys2Proof.Machine

open State

/-! ## Where branches and jumps leave PC -/

section
variable {i : Instr} {s : State}

/-- The offset byte's read leaves the flags, so a branch is decided by the state it began in. -/
theorem exec_branch_pc {offset : Int} {p : Prop} [Decidable p] (hm : i.mode = .rel)
    (ha : i.address s = relative offset s) (hp : taken i.mnemonic s = true ↔ p) :
    ∃ t, exec i s = .next t ∧ t.pc = if p then s.pc + 1 + BitVec.ofInt 16 offset else s.pc + 1 := by
  have htarget : (relative offset s).1 = s.pc + 1 + BitVec.ofInt 16 offset := by rw [relative, fetchOperand_pc]
  have hnext : (relative offset s).2.pc = s.pc + 1 := fetchOperand_pc s
  refine ⟨_, exec_branch i s hm, ?_⟩
  rw [taken_congr (Untouched.address i s).flag, ha]
  by_cases h : p
  · rw [if_pos (hp.mpr h), if_pos h, stall_pc, setPc_pc, htarget]
  · rw [if_neg (mt hp.mp h), if_neg h, stall_pc, hnext]

theorem exec_jump_pc (h : i.mnemonic.isJump = true) : ∃ t, exec i s = .next t ∧ t.pc = (i.address s).1 :=
  ⟨_, exec_jump i s h, by rw [jumpOp, stall_pc, setPc_pc]⟩

end

/-! ## The return address on the stack -/

theorem byte_sub_one_sub_one (b : Byte) : b - 1 - 1 = b - 2 := by bv_omega
theorem byte_add_one_add_one (b : Byte) : b + 1 + 1 = b + 2 := BitVec.add_assoc b 1 1
theorem byte_add_one_add_two (b : Byte) : b + 1 + 2 = b + 3 := BitVec.add_assoc b 1 2
theorem byte_sub_two_add_one (b : Byte) : b - 2 + 1 = b - 1 := by bv_omega

theorem stackAddr_injective : Function.Injective stackAddr := by
  intro a b h
  have hn := congrArg BitVec.toNat h
  rw [stackAddr_toNat, stackAddr_toNat] at hn
  exact BitVec.eq_of_toNat_eq (Nat.add_left_cancel hn)

/-- Two bytes at successive addresses of the stack page, wrapping round in it, are both there afterwards. -/
theorem read_stored_word {m : Memory} (hm : m.wf = true) (sp hi lo : Byte) :
    ((m.write (stackAddr sp) hi).write (stackAddr (sp - 1)) lo).read (stackAddr (sp - 1)) = lo ∧
      ((m.write (stackAddr sp) hi).write (stackAddr (sp - 1)) lo).read (stackAddr sp) = hi := by
  have hne : stackAddr sp ≠ stackAddr (sp - 1) := stackAddr_injective.ne (by bv_omega)
  constructor
  · exact Memory.read_write_same (Memory.wf_write hm _ _) _ _
  · rw [Memory.read_write_other hne, Memory.read_write_same hm]

namespace State

section
variable (s : State) (v : Byte)

/-- What a push does depends on no PC. -/
theorem push_setPc (w : Word) : (s.push v).setPc w = (s.setPc w).push v := by
  rw [push_eq, push_eq, memWrite_eq, memWrite_eq]
  rfl

@[simp] theorem push_devices : (s.push v).devices = s.devices := memWrite_devices _ _ _

theorem wf_push (hm : s.mem.wf = true) : (s.push v).mem.wf = true := wf_memWrite (s := s.setSp (s.sp - 1)) hm _ _

theorem stored_congr {t : State} (h : t.devices = s.devices) (m : Memory) (a : Word) :
    t.stored m a v = s.stored m a v := by
  rw [stored, stored, backed_congr s h]

/-- Two pushes and a jump: the stall repeats the second push, which the jump leaves on the bus. -/
theorem stall_push_push_setPc_mem (hm : s.mem.wf = true) (hi lo : Byte) (w : Word) (n : Nat) :
    ((((s.push hi).push lo).setPc w).stall n).mem =
      s.stored (s.stored s.mem (stackAddr s.sp) hi) (stackAddr (s.sp - 1)) lo := by
  have hwf : ((s.push hi).setPc w).mem.wf = true := wf_push s hi hm
  rw [push_setPc, stall_push_mem _ _ hwf, setPc_mem, setPc_sp, push_mem, push_sp,
    stored_congr s (t := (s.push hi).setPc w) _ (push_devices s hi)]

@[simp] theorem pull_p : s.pull.2.p = s.p := memRead_p _ _
@[simp] theorem pull_bus : s.pull.2.bus = ⟨.read, stackAddr (s.sp + 1), s.pull.1⟩ := memRead_bus _ _
@[simp] theorem pull_serve (a : Word) : s.pull.2.serve v a = s.serve v a := memRead_serve _ _ _ _

/-- Low byte first; the second pull falls back on what the first left on the bus. -/
theorem pullWord_value :
    let lo := s.serve s.bus.value (stackAddr (s.sp + 1))
    s.pullWord.1 = wordOf (s.serve lo (stackAddr (s.sp + 2))) lo := by
  simp only [pullWord, pull_value, pull_bus, pull_serve, pull_sp, byte_add_one_add_one]

@[simp] theorem pullWord_sp : s.pullWord.2.sp = s.sp + 2 := by
  simp only [pullWord, pull_sp, byte_add_one_add_one]

@[simp] theorem pullWord_p : s.pullWord.2.p = s.p := by
  simp only [pullWord, pull_p]

@[simp] theorem pullWord_flag (f : Flag) : s.pullWord.2.flag f = s.flag f := by
  rw [flag, pullWord_p, flag]

@[simp] theorem restoreStatus_serve (held : Byte) (a : Word) : (s.restoreStatus v).serve held a = s.serve held a := rfl

end

end State

end Sys2Proof.Machine

section

open Sys2Proof Sys2Proof.Machine State

/-- Settles O48: the eight branches are one, over the condition on a flag. -/
theorem branchesTestOneFlag : Obligations.BranchesTestOneFlag := fun o _ =>
  ⟨exec_branch_pc (i := .bcc o) rfl rfl (Bool.not_eq_true' _).to_iff, exec_branch_pc (i := .bcs o) rfl rfl Iff.rfl,
    exec_branch_pc (i := .beq o) rfl rfl Iff.rfl, exec_branch_pc (i := .bne o) rfl rfl (Bool.not_eq_true' _).to_iff,
    exec_branch_pc (i := .bmi o) rfl rfl Iff.rfl, exec_branch_pc (i := .bpl o) rfl rfl (Bool.not_eq_true' _).to_iff,
    exec_branch_pc (i := .bvc o) rfl rfl (Bool.not_eq_true' _).to_iff, exec_branch_pc (i := .bvs o) rfl rfl Iff.rfl⟩

/-- Settles O49: PC takes the address of the mode, which for the absolute mode is the operand. -/
theorem jumpsGoToTheirAddress : Obligations.JumpsGoToTheirAddress := fun addr _ =>
  ⟨exec_jump_pc (i := .jmpAbs addr) rfl, exec_jump_pc (i := .jmpInd addr) rfl⟩

/-- Settles O50: two pushes of the PC the operand reads left, less one; the stall repeats the second. -/
theorem jsrPushesReturnAddress : Obligations.JsrPushesReturnAddress := by
  intro addr s hm
  have hu := (fetched_absolute addr s).untouched
  have hwf : (absolute addr s).2.mem.wf = true := by rw [hu.mem, hm]
  have hret : (absolute addr s).2.pc - 1 = s.pc + 1 := by
    rw [(fetched_absolute addr s).pc, ← add_one_one, BitVec.add_sub_cancel]
  have hexec : exec (.jsr addr) s = .next (((((absolute addr s).2.push (highByte (s.pc + 1))).push
      (lowByte (s.pc + 1))).setPc addr).stall 6) := by
    rw [← hret]
    rfl
  refine ⟨_, hexec, ?_, ?_, ?_, ?_⟩
  · rw [stall_push_push_setPc_mem _ hwf, hu.mem, hu.sp, stored_congr s _ hu.devices, stored_congr s _ hu.devices]
  · rw [stall_sp, setPc_sp, push_sp, push_sp, hu.sp, byte_sub_one_sub_one]
  · rw [stall_pc, setPc_pc]
  · rw [stall_p, setPc_p, push_p, push_p, hu.p]

/-- Settles O51: `pullWord` in the state at the start of RTS, and for RTI in the state after the status is restored. -/
theorem returnsPullTheirAddress : Obligations.ReturnsPullTheirAddress := by
  intro s
  constructor
  · refine ⟨_, rfl, ?_, ?_, ?_⟩
    · rw [returnOp, stall_pc, setPc_pc, pullWord_value]
    · rw [returnOp, stall_sp, setPc_sp, pullWord_sp]
    · rw [returnOp, stall_p, setPc_p, pullWord_p]
  · have hexec : exec .rti s = .next ((((s.pull.2.restoreStatus s.pull.1).pullWord.2).setPc
        (s.pull.2.restoreStatus s.pull.1).pullWord.1).stall 6) := rfl
    refine ⟨_, hexec, ?_, ?_, fun f => ?_⟩
    · rw [stall_pc, setPc_pc, pullWord_value]
      simp only [restoreStatus_serve, restoreStatus_bus, restoreStatus_sp, pull_value, pull_bus, pull_serve, pull_sp,
        byte_add_one_add_one, byte_add_one_add_two]
    · rw [stall_sp, setPc_sp, pullWord_sp, restoreStatus_sp, pull_sp, byte_add_one_add_two]
    · rw [stall_flag, setPc_flag, pullWord_flag, restoreStatus_flag, pull_flag, pull_value]

/-- Settles O52: the two bytes RTS pulls are the two JSR pushed. -/
theorem rtsReturnsAfterJsr : Obligations.RtsReturnsAfterJsr := by
  intro addr s t u hm hhi hlo he hsp hmem hdev
  obtain ⟨t', he', htmem, htsp, -, -⟩ := jsrPushesReturnAddress addr s hm
  cases he.symm.trans he'
  have htdev : t.devices = s.devices := (Frame.of_jsr (F := []) he).devices
  have hstored : t.mem = (s.mem.write (stackAddr s.sp) (highByte (s.pc + 1))).write (stackAddr (s.sp - 1))
      (lowByte (s.pc + 1)) := by rw [htmem, stored, if_pos hlo, stored, if_pos hhi]
  refine ⟨hstored, ?_⟩
  obtain ⟨v, hv, hpc, hvsp, -⟩ := (returnsPullTheirAddress u).1
  have hone : u.sp + 1 = s.sp - 1 := by rw [hsp, htsp, byte_sub_two_add_one]
  have htwo : u.sp + 2 = s.sp := by rw [hsp, htsp, BitVec.sub_add_cancel]
  have hserve (b : Byte) (a : Word) (hb : s.backed a = true) : u.serve b a = t.mem.read a := by
    rw [serve_of_backed (by rwa [backed_congr s (hdev.trans htdev)]), hmem]
  obtain ⟨hreadLo, hreadHi⟩ := read_stored_word hm s.sp (highByte (s.pc + 1)) (lowByte (s.pc + 1))
  refine ⟨v, hv, ?_, hvsp.trans htwo⟩
  rw [hpc, hone, htwo, hserve _ _ hlo, hserve _ _ hhi, hstored, hreadLo, hreadHi, wordOf_highByte_lowByte]

end

/-! PROOFS, 47_flags_system.md: the flag instructions and NOP (R215 to R222) and BRK (R226). One flag write and its stall are
said once for the seven flag instructions. -/

namespace Sys2Proof.Machine

open State

section
variable {i : Instr} {s : State}

/-! ## The two cycles of an instruction without a bus access -/

theorem stall_two_ticks (hc : s.cyc = 0) (he : s.extra = 0) : (s.stall 2).ticks = s.ticks + 1 := by
  have hr : s.remaining 2 = 1 := by simp [remaining, hc, he]
  rw [stall_ticks, hr]
  rfl

/-- An instruction that is one flag write and its stall. -/
theorem exec_setFlag {g : Flag} {b : Bool} (h : exec i s = .next ((s.setFlag g b).stall 2)) (f : Flag) :
    ∃ t, exec i s = .next t ∧ t.flag f = (if f = g then b else s.flag f) ∧ t.pc = s.pc ∧
      (s.cyc = 0 → s.extra = 0 → t.ticks = s.ticks + 1) := by
  refine ⟨_, h, ?_, ?_, fun hc he => ?_⟩
  · rw [stall_flag, setFlag_flag]
  · rw [stall_pc, setFlag_pc]
  · rw [stall_two_ticks (by simpa using hc) (by simpa using he), setFlag_ticks]

theorem stall_snapshot (n : Nat) : (s.stall n).snapshot = s.snapshot := by
  simp [snapshot, status]

/-! ## The fetch of an opcode, and the halted core -/

/-- The device phase serves the held read and the core captures the byte; no register and no byte of memory moves. -/
theorem Untouched.fetched (hd : s.bus.dir = .read) : Untouched s s.fetched := by
  constructor <;> simp [State.fetched, beginTick_mem_of_read, hd]

@[simp] theorem fetched_pc (s : State) : s.fetched.pc = s.pc := by simp [fetched]
@[simp] theorem fetched_cyc (s : State) : s.fetched.cyc = s.cyc := by simp [fetched]
@[simp] theorem fetched_extra (s : State) : s.fetched.extra = s.extra := by simp [fetched]
@[simp] theorem fetched_bus_dir (s : State) : s.fetched.bus.dir = s.bus.dir := by simp [fetched]
@[simp] theorem fetched_bus_addr (s : State) : s.fetched.bus.addr = s.bus.addr := by simp [fetched]

/-- BRK's step is its decode tick (40_clock_step_sequencer.md R110). -/
theorem step_brk (hh : s.halted = false) (hi : s.seq = .idle) (hd : s.fetched.decoded = some .brk) :
    step s = .next (s.fetched.setCyc 0).halt :=
  step_eq_retire hh hi hd rfl

theorem ticksAfter_halted (n : Nat) (hh : s.halted = true) : (ticksAfter n s).halted = true :=
  ticksAfter_keeps (P := fun u => u.halted = true) (fun u hu => by rw [tick_halted hu, beginTick_halted, hu]) n hh

end

end Sys2Proof.Machine

section

open Sys2Proof Sys2Proof.Machine State

/-- Settles O53: seven flag writes, each with its stall of two cycles; NOP is the stall alone. -/
theorem flagInstructionsWriteOneFlag : Obligations.FlagInstructionsWriteOneFlag := fun s f =>
  ⟨exec_setFlag rfl f, exec_setFlag rfl f, exec_setFlag rfl f, exec_setFlag rfl f, exec_setFlag rfl f, exec_setFlag rfl f,
    exec_setFlag rfl f, s.stall 2, rfl, stall_snapshot 2, stall_two_ticks⟩

/-- Settles O54: the step is the fetch with `halted` set, and a halted core only ever ticks its devices. -/
theorem brkHaltsInItsDecodeTick : Obligations.BrkHaltsInItsDecodeTick := by
  refine ⟨fun s => rfl, fun s hinv hh hi hd => ?_⟩
  obtain ⟨-, hdir, haddr⟩ := hinv.fetchOutstanding hh hi
  have hu : Untouched s s.fetched := .fetched hdir
  refine ⟨_, step_brk hh hi hd, rfl, hu.seq.trans hi, capture_pending _, fetched_pc s, (fetched_bus_dir s).trans hdir,
    (fetched_bus_addr s).trans haddr, (fetched_extra s).trans (hinv.idleSettled hi), rfl, hu.mem, hu.diags, fetched_ticks s,
    fun r => ?_, hu.flag, fun n => ?_⟩
  · exact hu.frame.regs r List.not_mem_nil
  · have hn := ticksAfter_halted n (s := (s.fetched.setCyc 0).halt) rfl
    exact ⟨hn, (haltedCoreDoesNothing _ hn).1⟩

end

/-! PROOFS, 60_exceptions.md: no step faults or refuses (R234), and the illegal opcode is a one-byte skip (R231). -/

namespace Sys2Proof.Machine

open State

section
variable {s : State}

/-- Only the bytes of populated slots are decoded. -/
theorem decoded_eq_none_of_table (h : table s.latch = none) : s.decoded = none := by
  cases hd : s.decoded with
  | none => rfl
  | some i => cases h.symm.trans (delivered_of_decoded s i hd).2

/-- An instruction takes no ticks back: its meaning is its sequence run straight. -/
theorem ticks_le_of_exec {i : Instr} {t : State} (hd : s.decoded = some i) (hb : i.mnemonic ≠ .brk)
    (hh : s.halted = false) (hi : s.seq = .idle) (he : exec i (s.setCyc 0) = .next t) : s.ticks ≤ t.ticks := by
  rw [exec_straight (s := s.setCyc 0) (delivered_of_decoded _ _ hd).1 hb] at he
  cases he
  exact (runs _ _ (s.setCyc 0) (completes_sequenceOf hb) hh hi).le

/-- A step is one tick, or the decode tick of an instruction and the rest of its sequence. -/
theorem step_cases (s : State) : step s = .next (tick s) ∨ ∃ i u, s.halted = false ∧ s.seq = .idle ∧
    s.fetched.decoded = some i ∧ i.mnemonic ≠ .brk ∧ exec i (s.fetched.setCyc 0) = .next u ∧ step s = .next u.retire := by
  by_cases hone : s.halted = true ∨ s.seq ≠ .idle ∨ s.fetched.decoded = none
  · exact .inl (step_eq_tick hone)
  obtain ⟨hh, hi, hn⟩ : s.halted = false ∧ s.seq = .idle ∧ s.fetched.decoded ≠ none := by simpa using hone
  obtain ⟨i, hd⟩ := Option.ne_none_iff_exists'.mp hn
  by_cases hb : i.mnemonic = .brk
  · obtain rfl := eq_brk_of_mnemonic hb
    exact .inl (step_eq_tick_of_brk hh hi hd)
  · obtain ⟨u, he⟩ := exec_answers i (s.fetched.setCyc 0)
    exact .inr ⟨i, u, hh, hi, hd, hb, he, step_eq_retire hh hi hd he⟩

@[simp] theorem skipIllegal_pc (s : State) : s.skipIllegal.pc = s.pc + 1 := rfl
@[simp] theorem skipIllegal_bus_dir (s : State) : s.skipIllegal.bus.dir = .read := rfl
@[simp] theorem skipIllegal_bus_addr (s : State) : s.skipIllegal.bus.addr = s.pc := rfl
@[simp] theorem skipIllegal_pending (s : State) : s.skipIllegal.pending = true := rfl
@[simp] theorem skipIllegal_cyc (s : State) : s.skipIllegal.cyc = s.cyc := rfl
@[simp] theorem skipIllegal_extra (s : State) : s.skipIllegal.extra = s.extra := rfl
@[simp] theorem skipIllegal_mem (s : State) : s.skipIllegal.mem = s.mem := rfl
@[simp] theorem skipIllegal_p (s : State) : s.skipIllegal.p = s.p := rfl
@[simp] theorem skipIllegal_diags (s : State) :
    s.skipIllegal.diags = ⟨s.ticks, .illegalOpcode s.latch⟩ :: s.diags := rfl

theorem Frame.skipIllegal {R : List Reg} {F : List Flag} {M : List Word} {u : State} (h : Frame R F M s u) :
    Frame R F M s u.skipIllegal where
  __ := h
  regs r hr := by cases r <;> exact h.regs _ hr

end

end Sys2Proof.Machine

section

open Sys2Proof Sys2Proof.Machine State

/-- Settles O8: a tick counts one, and an instruction takes no tick back after its decode tick. -/
theorem stepAlwaysAnswers : Obligations.StepAlwaysAnswers := by
  intro s
  obtain hs | ⟨i, u, hh, hi, hd, hb, he, hs⟩ := step_cases s
  · exact ⟨_, hs, by simp [tick_ticks]⟩
  · have hle : s.fetched.ticks ≤ u.ticks := ticks_le_of_exec hd hb (by simpa) (by simpa) he
    rw [fetched_ticks] at hle
    exact ⟨_, hs, by rw [retire_ticks]; exact hle⟩

/-- Settles O9: an unpopulated slot decodes to nothing, and the tick is the fetch, the diagnostic and the next fetch. -/
theorem illegalOpcodeSkips : Obligations.IllegalOpcodeSkips := by
  intro s hh hi _ hdir hn
  have hu : Untouched s s.fetched := .fetched hdir
  have ht : tick s = s.fetched.skipIllegal := tick_illegal hh hi hn
  refine ⟨_, step_eq_tick (.inr (.inr (decoded_eq_none_of_table hn))), rfl, ?_⟩
  rw [ht]
  simp only [skipIllegal_pc, skipIllegal_bus_dir, skipIllegal_bus_addr, skipIllegal_pending, skipIllegal_diags,
    skipIllegal_ticks, skipIllegal_cyc, skipIllegal_extra, skipIllegal_mem, skipIllegal_p, fetched_pc, fetched_ticks,
    fetched_cyc, fetched_extra, hu.mem, hu.p, hu.diags, true_and]
  exact hu.frame.skipIllegal

end

/-! PROOFS, 70_reset_and_hazards.md: power-on (R250), the reset sequence (R251, R255) and the reset entry point (R253, R254).
The reset sequence is said tick by tick: two reads and the load of the vector, then its eight stall ticks. -/

namespace Sys2Proof.Machine

open State

theorem powerOn_flag (c : PowerOn) (f : Flag) :
    (State.powerOn c).flag f = if f = .u then true else c.p.getLsbD f.bit := by
  cases f <;> simp [flag, powerOn, Flag.bit]

/-! ## Suspended sequences, tick by tick -/

section
variable (s : State)

@[simp] theorem issueFetch_a : s.issueFetch.a = s.a := rfl
@[simp] theorem issueFetch_x : s.issueFetch.x = s.x := rfl
@[simp] theorem issueFetch_y : s.issueFetch.y = s.y := rfl
@[simp] theorem issueFetch_sp : s.issueFetch.sp = s.sp := rfl
@[simp] theorem issueFetch_p : s.issueFetch.p = s.p := rfl
@[simp] theorem issueFetch_pc : s.issueFetch.pc = s.pc + 1 := rfl
@[simp] theorem issueFetch_seq : s.issueFetch.seq = s.seq := rfl
@[simp] theorem issueFetch_extra : s.issueFetch.extra = s.extra := rfl
@[simp] theorem issueFetch_pending : s.issueFetch.pending = true := rfl
@[simp] theorem issueFetch_bus_dir : s.issueFetch.bus.dir = .read := rfl
@[simp] theorem issueFetch_bus_addr : s.issueFetch.bus.addr = s.pc := rfl
@[simp] theorem issueFetch_mem : s.issueFetch.mem = s.mem := rfl
@[simp] theorem issueFetch_diags : s.issueFetch.diags = s.diags := rfl

end

section
variable {s u : State} {t t' : Tmp} {rest rest' : List Micro}

theorem ticksAfter_add (m n : Nat) (s : State) : ticksAfter (m + n) s = ticksAfter n (ticksAfter m s) := by
  induction m generalizing s with
  | zero => rw [Nat.zero_add]; rfl
  | succ m ih => rw [Nat.succ_add]; exact ih (tick s)

/-- A tick in which the sequence suspends again. -/
theorem tick_resuspends (hh : s.halted = false) (ha : advance rest t s.nextTick = u.setSeq (.exec rest' t')) :
    tick (s.setSeq (.exec rest t)) = u.setSeq (.exec rest' t') := by
  rw [tick_suspended s rest t hh, ha]
  rfl

/-- The tick after the last suspension of a sequence. -/
theorem tick_completes (hh : s.halted = false) :
    tick (s.setSeq (.exec [] t)) = (s.nextTick.setSeq .idle).issueFetch :=
  tick_suspended s [] t hh

/-- Stall ticks already decided are suspensions. -/
theorem ticksAfter_stalling (k n : Nat) (hh : s.halted = false) :
    ticksAfter k (s.setSeq (.exec (List.replicate (k + n) .suspend) t)) =
      (suspends k s).setSeq (.exec (List.replicate n .suspend) t) := by
  induction k generalizing s with
  | zero => rw [Nat.zero_add]; rfl
  | succ k ih =>
    have htick : tick (s.setSeq (.exec (List.replicate (k + 1 + n) .suspend) t)) =
        s.nextTick.setSeq (.exec (List.replicate (k + n) .suspend) t) :=
      tick_resuspends hh (by rw [Nat.succ_add]; rfl)
    rw [ticksAfter, htick, ih (by simpa using hh)]
    rfl

end

/-! ## The reset sequence -/

/-- The low byte of the vector, captured in the second tick of the reset sequence (70_reset_and_hazards.md R251). -/
def State.resetLow (s : State) : Byte × State := s.nextTick.memRead 0xFFFC

/-- The high byte of the vector, captured in the third tick. -/
def State.resetHigh (s : State) : Byte × State := s.resetLow.2.memRead 0xFFFD

/-- The state once the vector is loaded and A, X and Y are cleared. -/
def State.vectorLoaded (s : State) : State :=
  (((s.resetHigh.2.setPc (wordOf s.resetHigh.1 s.resetLow.1)).setA 0).setX 0).setY 0

section
variable (s : State)

@[simp] theorem vectorLoaded_a : s.vectorLoaded.a = 0 := rfl
@[simp] theorem vectorLoaded_x : s.vectorLoaded.x = 0 := rfl
@[simp] theorem vectorLoaded_y : s.vectorLoaded.y = 0 := rfl
@[simp] theorem vectorLoaded_pc : s.vectorLoaded.pc = wordOf s.resetHigh.1 s.resetLow.1 := rfl
@[simp] theorem vectorLoaded_sp : s.vectorLoaded.sp = s.sp := by simp [vectorLoaded, resetHigh, resetLow]
@[simp] theorem vectorLoaded_p : s.vectorLoaded.p = s.p := by simp [vectorLoaded, resetHigh, resetLow]
@[simp] theorem vectorLoaded_halted : s.vectorLoaded.halted = s.halted := by
  simp [vectorLoaded, resetHigh, resetLow]
@[simp] theorem vectorLoaded_extra : s.vectorLoaded.extra = s.extra := by
  simp [vectorLoaded, resetHigh, resetLow]
@[simp] theorem vectorLoaded_diags : s.vectorLoaded.diags = s.diags := by
  simp [vectorLoaded, resetHigh, resetLow]
@[simp] theorem vectorLoaded_ticks : s.vectorLoaded.ticks = s.ticks + 3 := by
  simp [vectorLoaded, resetHigh, resetLow]
@[simp] theorem vectorLoaded_bus_dir : s.vectorLoaded.bus.dir = .read := by
  simp [vectorLoaded, resetHigh, resetLow]

end

section
variable {s : State}

theorem vectorLoaded_mem (hd : s.bus.dir = .read) : s.vectorLoaded.mem = s.mem := by
  simp [vectorLoaded, resetHigh, resetLow, nextTick_mem_of_read, hd]

theorem ticksAfter_three_of_resetStart (hs : s.seq = .resetStart) (hh : s.halted = false) :
    ticksAfter 3 s = s.vectorLoaded.setSeq
      (.exec (List.replicate 7 .suspend) { Tmp.start with lo := s.resetLow.1 }) := by
  have hstart : s.setSeq .resetStart = s := by rw [← hs]; rfl
  have h1 : tick (s.setSeq .resetStart) = (s.nextTick.assertRead 0xFFFC).setSeq (.exec resetRest Tmp.start) :=
    tick_resuspends hh rfl
  rw [hstart] at h1
  have h2 : tick ((s.nextTick.assertRead 0xFFFC).setSeq (.exec resetRest Tmp.start)) =
      (s.resetLow.2.assertRead 0xFFFD).setSeq
        (.exec (.loadVector :: List.replicate 8 .suspend) { Tmp.start with lo := s.resetLow.1 }) :=
    tick_resuspends (by simpa [assertRead] using hh) rfl
  have h3 : tick ((s.resetLow.2.assertRead 0xFFFD).setSeq
        (.exec (.loadVector :: List.replicate 8 .suspend) { Tmp.start with lo := s.resetLow.1 })) =
      s.vectorLoaded.setSeq (.exec (List.replicate 7 .suspend) { Tmp.start with lo := s.resetLow.1 }) :=
    tick_resuspends (by simpa [assertRead, resetLow] using hh) rfl
  rw [ticksAfter, ticksAfter, ticksAfter, h1, h2, h3]
  rfl

theorem resetLow_value (hd : s.bus.dir = .read) :
    s.resetLow.1 = s.serve (s.serve s.bus.value s.bus.addr) 0xFFFC := by
  have hserve : s.nextTick.serve s.nextTick.bus.value 0xFFFC = s.serve s.nextTick.bus.value 0xFFFC :=
    serve_congr s (nextTick_devices s) (nextTick_mem_of_read s hd) _ _
  have hvalue : s.nextTick.bus.value = s.serve s.bus.value s.bus.addr := by
    simp [nextTick, beginTick, devicePhase_read, hd]
  rw [resetLow, memRead_value, hserve, hvalue]

theorem resetHigh_value (hd : s.bus.dir = .read) : s.resetHigh.1 = s.serve s.resetLow.1 0xFFFD := by
  have hserve : s.nextTick.serve s.resetLow.1 0xFFFD = s.serve s.resetLow.1 0xFFFD :=
    serve_congr s (nextTick_devices s) (nextTick_mem_of_read s hd) _ _
  rw [resetHigh, memRead_value, ← hserve]
  simp [resetLow]

/-- The last stall tick of the sequence is still to end. -/
theorem ticksAfter_ten_of_resetStart (hs : s.seq = .resetStart) (hh : s.halted = false) :
    ticksAfter 10 s = (suspends 7 s.vectorLoaded).setSeq (.exec [] { Tmp.start with lo := s.resetLow.1 }) := by
  rw [ticksAfter_add 3 7, ticksAfter_three_of_resetStart hs hh]
  exact ticksAfter_stalling 7 0 (by rw [vectorLoaded_halted, hh])

/-- The sequence ends, and the opcode read at the vector is asserted. -/
theorem ticksAfter_eleven_of_resetStart (hs : s.seq = .resetStart) (hh : s.halted = false) :
    ticksAfter 11 s = ((suspends 8 s.vectorLoaded).setSeq .idle).issueFetch := by
  have hrunning : (suspends 7 s.vectorLoaded).halted = false := by rw [suspends_halted, vectorLoaded_halted, hh]
  rw [ticksAfter_add 10 1, ticksAfter_ten_of_resetStart hs hh, ticksAfter, ticksAfter, tick_completes hrunning]
  rfl

end

/-! ## The reset entry point -/

section
variable {s : State}

theorem hostReset_of_between (h : s.seq = .idle ∨ s.seq = .resetStart) :
    s.hostReset = .next { s with halted := false, extra := 0, seq := .resetStart } := by
  have hb : s.betweenInstructions = true := by simpa [betweenInstructions] using h
  rw [hostReset, if_pos hb]
  rfl

theorem hostReset_of_not_between (h : ¬ (s.seq = .idle ∨ s.seq = .resetStart)) :
    s.hostReset = .refused .resetMidInstruction := by
  have hb : ¬ s.betweenInstructions = true := by simpa [betweenInstructions] using h
  rw [hostReset, if_neg hb]

end

end Sys2Proof.Machine

section

open Sys2Proof Sys2Proof.Machine State

/-- Settles O17: field by field; only P is not as `c` gives it. -/
theorem powerOnState : Obligations.PowerOnState := fun c =>
  ⟨rfl, rfl, rfl, rfl, rfl, powerOn_flag c, rfl, rfl, rfl, rfl, rfl, rfl, rfl, rfl, rfl, rfl, rfl, rfl⟩

/-- Settles O19: what `reset()` answers has the reset sequence at its start, so a second call may be made and writes what
the first wrote. -/
theorem resetEntryPoint : Obligations.ResetEntryPoint := by
  refine fun s => ⟨hostReset_of_between, fun hi hr => hostReset_of_not_between (not_or.mpr ⟨hi, hr⟩), fun t ht => ?_⟩
  by_cases h : s.seq = .idle ∨ s.seq = .resetStart
  · rw [hostReset_of_between h] at ht
    cases ht
    exact hostReset_of_between (.inr rfl)
  · rw [hostReset_of_not_between h] at ht
    cases ht

/-- Settles O18: the vector is loaded in tick 3, tick 10 is a stall tick, and tick 11 ends the sequence. -/
theorem resetSequenceLoadsVector : Obligations.ResetSequenceLoadsVector := by
  intro s hs hh hd lo hi t3 t
  have hlo : s.resetLow.1 = lo := resetLow_value hd
  have hhi : s.resetHigh.1 = hi := by rw [resetHigh_value hd, hlo]
  have hmem : (suspends 8 s.vectorLoaded).mem = s.mem := by
    rw [suspends_mem_of_read 8 (vectorLoaded_bus_dir s), vectorLoaded_mem hd]
  have ht3 : t3 = _ := ticksAfter_three_of_resetStart hs hh
  have ht : t = _ := ticksAfter_eleven_of_resetStart hs hh
  refine ⟨?_, ?_, ?_⟩
  · simp [ht3, hlo, hhi]
  · simp [ticksAfter_ten_of_resetStart hs hh]
  · simp [ht, hlo, hhi, hmem, hh]

end
